-- ==== Sys2Proof/Word.lean ====
section
/-! DEFINITION. The two word types of the hardware (00_scope.md R6, R9): a data byte `u8` and an address `u16`. -/

namespace Sys2Proof

/-- `u8`: A, X, Y, SP, P and a memory byte (R6, R9). -/
abbrev Byte := BitVec 8

/-- `u16`: PC and a memory address (R6, R9). -/
abbrev Addr := BitVec 16

end Sys2Proof
end

