-- ==== Sys2Proof/Config.lean ====
section
/-! DEFINITION. What is fixed for the machine: the parameters of 00_scope.md R6 that the definitions use, and the values the
model names for the launch parameters of R7, which the spec leaves open (10_state.md R32). -/

namespace Sys2Proof.Config

/-- "65536 addressable bytes, flat, no banking" (R6, R33). -/
def memorySize : Nat := 65536

/-- The first address of the stack page (R6, R19). -/
def stackBase : Addr := 0x0100#16

/-- What an address that memory does not list reads as. DESIGN CHOICE (log 4), unsafe: the spec gives memory no contents
before the loader runs (`init_mem`, R7, D27). -/
def unlistedByte : Byte := 0x00#8

/-- `init_A` (R7). DESIGN CHOICE (log 1), unsafe: OPEN in the spec (D13). -/
def initA : Byte := 0x00#8

/-- `init_X` (R7). DESIGN CHOICE (log 1), unsafe: OPEN in the spec (D13). -/
def initX : Byte := 0x00#8

/-- `init_Y` (R7). DESIGN CHOICE (log 1), unsafe: OPEN in the spec (D13). -/
def initY : Byte := 0x00#8

/-- `init_SP` (R7). DESIGN CHOICE (log 1), unsafe: OPEN in the spec (D13). -/
def initSP : Byte := 0x00#8

/-- `init_P` (R7). Bit 5 = 1 is the spec's (R22). The seven flags at 0 are a DESIGN CHOICE (log 2), unsafe: OPEN (D13). -/
def initP : Byte := 0x20#8

/-- `init_PC` (R7). DESIGN CHOICE (log 3), unsafe: OPEN in the spec (D13); the core fetches no reset vector (R32). -/
def initPC : Addr := 0x0000#16

end Sys2Proof.Config
end

