-- ==== Sys2Proof/Syntax.lean ====
section
/-! DEFINITION. The instruction set as data: the 13 addressing modes with their operands (30_encoding.md R53), the operand
forms each mnemonic has in opcode_table.json, and `Instr`. A pair of a constructor and one of its forms is one defined row of
the table; `undefined op` is the row of the undefined byte `op`. No pair that the table lacks can be written (log 7). -/

namespace Sys2Proof

/-- The 13 mode tags (R53). -/
inductive Mode where
  | imp | acc | imm | zp | zpx | zpy | rel | abs | abx | aby | ind | izx | izy
  deriving DecidableEq, Repr

/-- A mode together with its operand bytes, assembled (R52, R55). -/
inductive Operand where
  | imp
  | acc
  | imm (v : Byte)
  | zp (b : Byte)
  | zpx (b : Byte)
  | zpy (b : Byte)
  | rel (d : Byte)
  | abs (w : Addr)
  | abx (w : Addr)
  | aby (w : Addr)
  | ind (w : Addr)
  | izx (b : Byte)
  | izy (b : Byte)
  deriving DecidableEq, Repr

def Operand.mode : Operand → Mode
  | .imp => .imp
  | .acc => .acc
  | .imm _ => .imm
  | .zp _ => .zp
  | .zpx _ => .zpx
  | .zpy _ => .zpy
  | .rel _ => .rel
  | .abs _ => .abs
  | .abx _ => .abx
  | .aby _ => .aby
  | .ind _ => .ind
  | .izx _ => .izx
  | .izy _ => .izy

/-- The instruction length a mode fixes, opcode byte included (R53). -/
def Mode.length : Mode → Nat
  | .imp | .acc => 1
  | .imm | .zp | .zpx | .zpy | .rel | .izx | .izy => 2
  | .abs | .abx | .aby | .ind => 3

/-- LDA, ADC, SBC, AND, ORA, EOR, CMP: the eight read modes (R81, R88 to R92, R98). -/
inductive AluForm where
  | imm (v : Byte)
  | zp (b : Byte)
  | zpx (b : Byte)
  | abs (w : Addr)
  | abx (w : Addr)
  | aby (w : Addr)
  | izx (b : Byte)
  | izy (b : Byte)
  deriving DecidableEq, Repr

def AluForm.operand : AluForm → Operand
  | .imm v => .imm v
  | .zp b => .zp b
  | .zpx b => .zpx b
  | .abs w => .abs w
  | .abx w => .abx w
  | .aby w => .aby w
  | .izx b => .izx b
  | .izy b => .izy b

/-- LDX (R82). -/
inductive LdxForm where
  | imm (v : Byte)
  | zp (b : Byte)
  | zpy (b : Byte)
  | abs (w : Addr)
  | aby (w : Addr)
  deriving DecidableEq, Repr

def LdxForm.operand : LdxForm → Operand
  | .imm v => .imm v
  | .zp b => .zp b
  | .zpy b => .zpy b
  | .abs w => .abs w
  | .aby w => .aby w

/-- LDY (R83). -/
inductive LdyForm where
  | imm (v : Byte)
  | zp (b : Byte)
  | zpx (b : Byte)
  | abs (w : Addr)
  | abx (w : Addr)
  deriving DecidableEq, Repr

def LdyForm.operand : LdyForm → Operand
  | .imm v => .imm v
  | .zp b => .zp b
  | .zpx b => .zpx b
  | .abs w => .abs w
  | .abx w => .abx w

/-- STA (R84): no immediate form. -/
inductive StaForm where
  | zp (b : Byte)
  | zpx (b : Byte)
  | abs (w : Addr)
  | abx (w : Addr)
  | aby (w : Addr)
  | izx (b : Byte)
  | izy (b : Byte)
  deriving DecidableEq, Repr

def StaForm.operand : StaForm → Operand
  | .zp b => .zp b
  | .zpx b => .zpx b
  | .abs w => .abs w
  | .abx w => .abx w
  | .aby w => .aby w
  | .izx b => .izx b
  | .izy b => .izy b

/-- STX (R85). -/
inductive StxForm where
  | zp (b : Byte)
  | zpy (b : Byte)
  | abs (w : Addr)
  deriving DecidableEq, Repr

def StxForm.operand : StxForm → Operand
  | .zp b => .zp b
  | .zpy b => .zpy b
  | .abs w => .abs w

/-- STY (R86). -/
inductive StyForm where
  | zp (b : Byte)
  | zpx (b : Byte)
  | abs (w : Addr)
  deriving DecidableEq, Repr

def StyForm.operand : StyForm → Operand
  | .zp b => .zp b
  | .zpx b => .zpx b
  | .abs w => .abs w

/-- ASL, LSR, ROL, ROR: accumulator or memory (R93 to R96). -/
inductive ShiftForm where
  | acc
  | zp (b : Byte)
  | zpx (b : Byte)
  | abs (w : Addr)
  | abx (w : Addr)
  deriving DecidableEq, Repr

def ShiftForm.operand : ShiftForm → Operand
  | .acc => .acc
  | .zp b => .zp b
  | .zpx b => .zpx b
  | .abs w => .abs w
  | .abx w => .abx w

/-- INC, DEC (R101, R102). -/
inductive IncForm where
  | zp (b : Byte)
  | zpx (b : Byte)
  | abs (w : Addr)
  | abx (w : Addr)
  deriving DecidableEq, Repr

def IncForm.operand : IncForm → Operand
  | .zp b => .zp b
  | .zpx b => .zpx b
  | .abs w => .abs w
  | .abx w => .abx w

/-- CPX, CPY (R99, R100). -/
inductive IndexCompareForm where
  | imm (v : Byte)
  | zp (b : Byte)
  | abs (w : Addr)
  deriving DecidableEq, Repr

def IndexCompareForm.operand : IndexCompareForm → Operand
  | .imm v => .imm v
  | .zp b => .zp b
  | .abs w => .abs w

/-- BIT (R137): no immediate and no indexed form. -/
inductive BitForm where
  | zp (b : Byte)
  | abs (w : Addr)
  deriving DecidableEq, Repr

def BitForm.operand : BitForm → Operand
  | .zp b => .zp b
  | .abs w => .abs w

/-- JMP (R116). -/
inductive JmpForm where
  | abs (w : Addr)
  | ind (w : Addr)
  deriving DecidableEq, Repr

def JmpForm.operand : JmpForm → Operand
  | .abs w => .abs w
  | .ind w => .ind w

/-- The instructions: one constructor for each mnemonic of opcode_table.json, its operand form as argument. -/
inductive Instr where
  -- Load and store
  | lda (f : AluForm)
  | ldx (f : LdxForm)
  | ldy (f : LdyForm)
  | sta (f : StaForm)
  | stx (f : StxForm)
  | sty (f : StyForm)
  -- Arithmetic and logic
  | adc (f : AluForm)
  | sbc (f : AluForm)
  | and (f : AluForm)
  | ora (f : AluForm)
  | eor (f : AluForm)
  -- Shift and rotate
  | asl (f : ShiftForm)
  | lsr (f : ShiftForm)
  | rol (f : ShiftForm)
  | ror (f : ShiftForm)
  -- Compare, increment, decrement
  | cmp (f : AluForm)
  | cpx (f : IndexCompareForm)
  | cpy (f : IndexCompareForm)
  | inc (f : IncForm)
  | dec (f : IncForm)
  | inx
  | iny
  | dex
  | dey
  -- Branches, with the displacement byte
  | bcc (d : Byte)
  | bcs (d : Byte)
  | beq (d : Byte)
  | bne (d : Byte)
  | bmi (d : Byte)
  | bpl (d : Byte)
  | bvc (d : Byte)
  | bvs (d : Byte)
  -- Jump, call, return
  | jmp (f : JmpForm)
  | jsr (target : Addr)
  | rts
  | rti
  -- Stack
  | pha
  | php
  | pla
  | plp
  -- Flags
  | clc
  | sec
  | cld
  | sed
  | cli
  | sei
  | clv
  -- Transfers
  | tax
  | tay
  | txa
  | tya
  | tsx
  | txs
  -- Bit test, no operation, break
  | bit (f : BitForm)
  | nop
  | brk
  -- An undefined opcode byte (R58, R141)
  | undefined (op : Byte)
  deriving DecidableEq, Repr

/-- The operand of an instruction in its addressing mode (R53, R65 to R77). -/
def Instr.operand : Instr → Operand
  | .lda f => f.operand
  | .ldx f => f.operand
  | .ldy f => f.operand
  | .sta f => f.operand
  | .stx f => f.operand
  | .sty f => f.operand
  | .adc f => f.operand
  | .sbc f => f.operand
  | .and f => f.operand
  | .ora f => f.operand
  | .eor f => f.operand
  | .asl f => f.operand
  | .lsr f => f.operand
  | .rol f => f.operand
  | .ror f => f.operand
  | .cmp f => f.operand
  | .cpx f => f.operand
  | .cpy f => f.operand
  | .inc f => f.operand
  | .dec f => f.operand
  | .inx => .imp
  | .iny => .imp
  | .dex => .imp
  | .dey => .imp
  | .bcc d => .rel d
  | .bcs d => .rel d
  | .beq d => .rel d
  | .bne d => .rel d
  | .bmi d => .rel d
  | .bpl d => .rel d
  | .bvc d => .rel d
  | .bvs d => .rel d
  | .jmp f => f.operand
  | .jsr target => .abs target
  | .rts => .imp
  | .rti => .imp
  | .pha => .imp
  | .php => .imp
  | .pla => .imp
  | .plp => .imp
  | .clc => .imp
  | .sec => .imp
  | .cld => .imp
  | .sed => .imp
  | .cli => .imp
  | .sei => .imp
  | .clv => .imp
  | .tax => .imp
  | .tay => .imp
  | .txa => .imp
  | .tya => .imp
  | .tsx => .imp
  | .txs => .imp
  | .bit f => f.operand
  | .nop => .imp
  | .brk => .imp
  | .undefined _ => .imp

/-- How many bytes an instruction occupies (R53, R59); an undefined byte has length 1 (R58). -/
def Instr.length (i : Instr) : Nat := i.operand.mode.length

end Sys2Proof
end

