-- ==== Sys2Proof/Decode.lean ====
section
/-! DEFINITION. Byte order, the dispatch table of 30_encoding.md R56 and R57, the decoder over any bytes, and the encoder. The
dispatch table is written from the matrix of R57, the encoder's opcode bytes from the Encoding lists of 41_load_store.md to
49_bit_control_break.md. The bytes and base cycles are the spec's own supplement (D1, D2; log 10). -/

namespace Sys2Proof

/-- `lo(w)`: bits 7 to 0 (R8). -/
def lo (w : Addr) : Byte := w.extractLsb' 0 8

/-- `hi(w)`: bits 15 to 8, the page number (R8). -/
def hi (w : Addr) : Byte := w.extractLsb' 8 8

/-- The little-endian word `low + 256 * high` (R36). -/
def word (low high : Byte) : Addr := high ++ low

/-- `zext_16` (R9). -/
def zext16 (v : Byte) : Addr := v.setWidth 16

/-- `sext_16` (R9). -/
def sext16 (v : Byte) : Addr := v.signExtend 16

/-- The instruction a defined entry makes of its operand bytes, by format (R52): none, one byte, or one little-endian word. -/
inductive Format where
  | f1 (i : Instr)
  | f2 (mk : Byte → Instr)
  | f3 (mk : Addr → Instr)

/-- A defined entry of `DISPATCH` (R56): mnemonic and mode (what `format` builds), base cycles, page-penalty class. -/
structure Entry where
  format : Format
  base : Nat
  pagePenalty : Bool

namespace Dispatch

/-! The cells of R57: `f1`, `f2`, `f3` by format, the base cycle count last; a `p` marks the cells R57 marks `+`. -/

def undef : Option Entry := none
def f1 (i : Instr) (base : Nat) : Option Entry := some ⟨.f1 i, base, false⟩
def f2 (mk : Byte → Instr) (base : Nat) : Option Entry := some ⟨.f2 mk, base, false⟩
def f2p (mk : Byte → Instr) (base : Nat) : Option Entry := some ⟨.f2 mk, base, true⟩
def f3 (mk : Addr → Instr) (base : Nat) : Option Entry := some ⟨.f3 mk, base, false⟩
def f3p (mk : Addr → Instr) (base : Nat) : Option Entry := some ⟨.f3 mk, base, true⟩

/-- Row 0x of R57. -/
def opcodeRow0 : List (Option Entry) :=
  [f1 .brk 7, f2 (.ora <| .izx ·) 6, undef, undef] ++
  [undef, f2 (.ora <| .zp ·) 3, f2 (.asl <| .zp ·) 5, undef] ++
  [f1 .php 3, f2 (.ora <| .imm ·) 2, f1 (.asl .acc) 2, undef] ++
  [undef, f3 (.ora <| .abs ·) 4, f3 (.asl <| .abs ·) 6, undef]

/-- Row 1x of R57. -/
def opcodeRow1 : List (Option Entry) :=
  [f2 .bpl 2, f2p (.ora <| .izy ·) 5, undef, undef] ++
  [undef, f2 (.ora <| .zpx ·) 4, f2 (.asl <| .zpx ·) 6, undef] ++
  [f1 .clc 2, f3p (.ora <| .aby ·) 4, undef, undef] ++
  [undef, f3p (.ora <| .abx ·) 4, f3 (.asl <| .abx ·) 7, undef]

/-- Row 2x of R57. -/
def opcodeRow2 : List (Option Entry) :=
  [f3 .jsr 6, f2 (.and <| .izx ·) 6, undef, undef] ++
  [f2 (.bit <| .zp ·) 3, f2 (.and <| .zp ·) 3, f2 (.rol <| .zp ·) 5, undef] ++
  [f1 .plp 4, f2 (.and <| .imm ·) 2, f1 (.rol .acc) 2, undef] ++
  [f3 (.bit <| .abs ·) 4, f3 (.and <| .abs ·) 4, f3 (.rol <| .abs ·) 6, undef]

/-- Row 3x of R57. -/
def opcodeRow3 : List (Option Entry) :=
  [f2 .bmi 2, f2p (.and <| .izy ·) 5, undef, undef] ++
  [undef, f2 (.and <| .zpx ·) 4, f2 (.rol <| .zpx ·) 6, undef] ++
  [f1 .sec 2, f3p (.and <| .aby ·) 4, undef, undef] ++
  [undef, f3p (.and <| .abx ·) 4, f3 (.rol <| .abx ·) 7, undef]

/-- Row 4x of R57. -/
def opcodeRow4 : List (Option Entry) :=
  [f1 .rti 6, f2 (.eor <| .izx ·) 6, undef, undef] ++
  [undef, f2 (.eor <| .zp ·) 3, f2 (.lsr <| .zp ·) 5, undef] ++
  [f1 .pha 3, f2 (.eor <| .imm ·) 2, f1 (.lsr .acc) 2, undef] ++
  [f3 (.jmp <| .abs ·) 3, f3 (.eor <| .abs ·) 4, f3 (.lsr <| .abs ·) 6, undef]

/-- Row 5x of R57. -/
def opcodeRow5 : List (Option Entry) :=
  [f2 .bvc 2, f2p (.eor <| .izy ·) 5, undef, undef] ++
  [undef, f2 (.eor <| .zpx ·) 4, f2 (.lsr <| .zpx ·) 6, undef] ++
  [f1 .cli 2, f3p (.eor <| .aby ·) 4, undef, undef] ++
  [undef, f3p (.eor <| .abx ·) 4, f3 (.lsr <| .abx ·) 7, undef]

/-- Row 6x of R57. -/
def opcodeRow6 : List (Option Entry) :=
  [f1 .rts 6, f2 (.adc <| .izx ·) 6, undef, undef] ++
  [undef, f2 (.adc <| .zp ·) 3, f2 (.ror <| .zp ·) 5, undef] ++
  [f1 .pla 4, f2 (.adc <| .imm ·) 2, f1 (.ror .acc) 2, undef] ++
  [f3 (.jmp <| .ind ·) 5, f3 (.adc <| .abs ·) 4, f3 (.ror <| .abs ·) 6, undef]

/-- Row 7x of R57. -/
def opcodeRow7 : List (Option Entry) :=
  [f2 .bvs 2, f2p (.adc <| .izy ·) 5, undef, undef] ++
  [undef, f2 (.adc <| .zpx ·) 4, f2 (.ror <| .zpx ·) 6, undef] ++
  [f1 .sei 2, f3p (.adc <| .aby ·) 4, undef, undef] ++
  [undef, f3p (.adc <| .abx ·) 4, f3 (.ror <| .abx ·) 7, undef]

/-- Row 8x of R57. -/
def opcodeRow8 : List (Option Entry) :=
  [undef, f2 (.sta <| .izx ·) 6, undef, undef] ++
  [f2 (.sty <| .zp ·) 3, f2 (.sta <| .zp ·) 3, f2 (.stx <| .zp ·) 3, undef] ++
  [f1 .dey 2, undef, f1 .txa 2, undef] ++
  [f3 (.sty <| .abs ·) 4, f3 (.sta <| .abs ·) 4, f3 (.stx <| .abs ·) 4, undef]

/-- Row 9x of R57. -/
def opcodeRow9 : List (Option Entry) :=
  [f2 .bcc 2, f2 (.sta <| .izy ·) 6, undef, undef] ++
  [f2 (.sty <| .zpx ·) 4, f2 (.sta <| .zpx ·) 4, f2 (.stx <| .zpy ·) 4, undef] ++
  [f1 .tya 2, f3 (.sta <| .aby ·) 5, f1 .txs 2, undef] ++
  [undef, f3 (.sta <| .abx ·) 5, undef, undef]

/-- Row Ax of R57. -/
def opcodeRowA : List (Option Entry) :=
  [f2 (.ldy <| .imm ·) 2, f2 (.lda <| .izx ·) 6, f2 (.ldx <| .imm ·) 2, undef] ++
  [f2 (.ldy <| .zp ·) 3, f2 (.lda <| .zp ·) 3, f2 (.ldx <| .zp ·) 3, undef] ++
  [f1 .tay 2, f2 (.lda <| .imm ·) 2, f1 .tax 2, undef] ++
  [f3 (.ldy <| .abs ·) 4, f3 (.lda <| .abs ·) 4, f3 (.ldx <| .abs ·) 4, undef]

/-- Row Bx of R57. -/
def opcodeRowB : List (Option Entry) :=
  [f2 .bcs 2, f2p (.lda <| .izy ·) 5, undef, undef] ++
  [f2 (.ldy <| .zpx ·) 4, f2 (.lda <| .zpx ·) 4, f2 (.ldx <| .zpy ·) 4, undef] ++
  [f1 .clv 2, f3p (.lda <| .aby ·) 4, f1 .tsx 2, undef] ++
  [f3p (.ldy <| .abx ·) 4, f3p (.lda <| .abx ·) 4, f3p (.ldx <| .aby ·) 4, undef]

/-- Row Cx of R57. -/
def opcodeRowC : List (Option Entry) :=
  [f2 (.cpy <| .imm ·) 2, f2 (.cmp <| .izx ·) 6, undef, undef] ++
  [f2 (.cpy <| .zp ·) 3, f2 (.cmp <| .zp ·) 3, f2 (.dec <| .zp ·) 5, undef] ++
  [f1 .iny 2, f2 (.cmp <| .imm ·) 2, f1 .dex 2, undef] ++
  [f3 (.cpy <| .abs ·) 4, f3 (.cmp <| .abs ·) 4, f3 (.dec <| .abs ·) 6, undef]

/-- Row Dx of R57. -/
def opcodeRowD : List (Option Entry) :=
  [f2 .bne 2, f2p (.cmp <| .izy ·) 5, undef, undef] ++
  [undef, f2 (.cmp <| .zpx ·) 4, f2 (.dec <| .zpx ·) 6, undef] ++
  [f1 .cld 2, f3p (.cmp <| .aby ·) 4, undef, undef] ++
  [undef, f3p (.cmp <| .abx ·) 4, f3 (.dec <| .abx ·) 7, undef]

/-- Row Ex of R57. -/
def opcodeRowE : List (Option Entry) :=
  [f2 (.cpx <| .imm ·) 2, f2 (.sbc <| .izx ·) 6, undef, undef] ++
  [f2 (.cpx <| .zp ·) 3, f2 (.sbc <| .zp ·) 3, f2 (.inc <| .zp ·) 5, undef] ++
  [f1 .inx 2, f2 (.sbc <| .imm ·) 2, f1 .nop 2, undef] ++
  [f3 (.cpx <| .abs ·) 4, f3 (.sbc <| .abs ·) 4, f3 (.inc <| .abs ·) 6, undef]

/-- Row Fx of R57. -/
def opcodeRowF : List (Option Entry) :=
  [f2 .beq 2, f2p (.sbc <| .izy ·) 5, undef, undef] ++
  [undef, f2 (.sbc <| .zpx ·) 4, f2 (.inc <| .zpx ·) 6, undef] ++
  [f1 .sed 2, f3p (.sbc <| .aby ·) 4, undef, undef] ++
  [undef, f3p (.sbc <| .abx ·) 4, f3 (.inc <| .abx ·) 7, undef]

/-- The matrix of R57: row = opcode[7:4]. -/
def opcodeRows : List (List (Option Entry)) :=
  [opcodeRow0, opcodeRow1, opcodeRow2, opcodeRow3] ++
  [opcodeRow4, opcodeRow5, opcodeRow6, opcodeRow7] ++
  [opcodeRow8, opcodeRow9, opcodeRowA, opcodeRowB] ++
  [opcodeRowC, opcodeRowD, opcodeRowE, opcodeRowF]

end Dispatch

/-- `DISPATCH[op]` (R56): a defined entry, or `none` for `Undefined`. -/
def dispatch (op : Byte) : Option Entry :=
  ((Dispatch.opcodeRows.getD (op.toNat / 16) []).getD (op.toNat % 16) none)

/-- Why a byte list holds no whole instruction. Raised by `decode` alone; a fetch from memory never lacks a byte. -/
inductive DecodeError where
  | noOpcode
  | missingOperand (op : Byte)
  deriving DecidableEq, Repr

/-- The instruction at the head of a byte list and the bytes after it (R52, R59). An undefined byte is one byte long (R58). -/
def decode : List Byte → Except DecodeError (Instr × List Byte)
  | [] => .error .noOpcode
  | op :: bytes =>
    match dispatch op with
    | none => .ok (.undefined op, bytes)
    | some e =>
      match e.format, bytes with
      | .f1 i, rest => .ok (i, rest)
      | .f2 mk, b :: rest => .ok (mk b, rest)
      | .f3 mk, l :: h :: rest => .ok (mk (word l h), rest)
      | _, _ => .error (.missingOperand op)

/-- The opcode byte of an instruction: the Encoding lists of R81 to R139. -/
def Instr.opcode : Instr → Byte
  | .lda (.imm _) => 0xA9#8
  | .lda (.zp _) => 0xA5#8
  | .lda (.zpx _) => 0xB5#8
  | .lda (.abs _) => 0xAD#8
  | .lda (.abx _) => 0xBD#8
  | .lda (.aby _) => 0xB9#8
  | .lda (.izx _) => 0xA1#8
  | .lda (.izy _) => 0xB1#8
  | .ldx (.imm _) => 0xA2#8
  | .ldx (.zp _) => 0xA6#8
  | .ldx (.zpy _) => 0xB6#8
  | .ldx (.abs _) => 0xAE#8
  | .ldx (.aby _) => 0xBE#8
  | .ldy (.imm _) => 0xA0#8
  | .ldy (.zp _) => 0xA4#8
  | .ldy (.zpx _) => 0xB4#8
  | .ldy (.abs _) => 0xAC#8
  | .ldy (.abx _) => 0xBC#8
  | .sta (.zp _) => 0x85#8
  | .sta (.zpx _) => 0x95#8
  | .sta (.abs _) => 0x8D#8
  | .sta (.abx _) => 0x9D#8
  | .sta (.aby _) => 0x99#8
  | .sta (.izx _) => 0x81#8
  | .sta (.izy _) => 0x91#8
  | .stx (.zp _) => 0x86#8
  | .stx (.zpy _) => 0x96#8
  | .stx (.abs _) => 0x8E#8
  | .sty (.zp _) => 0x84#8
  | .sty (.zpx _) => 0x94#8
  | .sty (.abs _) => 0x8C#8
  | .adc (.imm _) => 0x69#8
  | .adc (.zp _) => 0x65#8
  | .adc (.zpx _) => 0x75#8
  | .adc (.abs _) => 0x6D#8
  | .adc (.abx _) => 0x7D#8
  | .adc (.aby _) => 0x79#8
  | .adc (.izx _) => 0x61#8
  | .adc (.izy _) => 0x71#8
  | .sbc (.imm _) => 0xE9#8
  | .sbc (.zp _) => 0xE5#8
  | .sbc (.zpx _) => 0xF5#8
  | .sbc (.abs _) => 0xED#8
  | .sbc (.abx _) => 0xFD#8
  | .sbc (.aby _) => 0xF9#8
  | .sbc (.izx _) => 0xE1#8
  | .sbc (.izy _) => 0xF1#8
  | .and (.imm _) => 0x29#8
  | .and (.zp _) => 0x25#8
  | .and (.zpx _) => 0x35#8
  | .and (.abs _) => 0x2D#8
  | .and (.abx _) => 0x3D#8
  | .and (.aby _) => 0x39#8
  | .and (.izx _) => 0x21#8
  | .and (.izy _) => 0x31#8
  | .ora (.imm _) => 0x09#8
  | .ora (.zp _) => 0x05#8
  | .ora (.zpx _) => 0x15#8
  | .ora (.abs _) => 0x0D#8
  | .ora (.abx _) => 0x1D#8
  | .ora (.aby _) => 0x19#8
  | .ora (.izx _) => 0x01#8
  | .ora (.izy _) => 0x11#8
  | .eor (.imm _) => 0x49#8
  | .eor (.zp _) => 0x45#8
  | .eor (.zpx _) => 0x55#8
  | .eor (.abs _) => 0x4D#8
  | .eor (.abx _) => 0x5D#8
  | .eor (.aby _) => 0x59#8
  | .eor (.izx _) => 0x41#8
  | .eor (.izy _) => 0x51#8
  | .asl .acc => 0x0A#8
  | .asl (.zp _) => 0x06#8
  | .asl (.zpx _) => 0x16#8
  | .asl (.abs _) => 0x0E#8
  | .asl (.abx _) => 0x1E#8
  | .lsr .acc => 0x4A#8
  | .lsr (.zp _) => 0x46#8
  | .lsr (.zpx _) => 0x56#8
  | .lsr (.abs _) => 0x4E#8
  | .lsr (.abx _) => 0x5E#8
  | .rol .acc => 0x2A#8
  | .rol (.zp _) => 0x26#8
  | .rol (.zpx _) => 0x36#8
  | .rol (.abs _) => 0x2E#8
  | .rol (.abx _) => 0x3E#8
  | .ror .acc => 0x6A#8
  | .ror (.zp _) => 0x66#8
  | .ror (.zpx _) => 0x76#8
  | .ror (.abs _) => 0x6E#8
  | .ror (.abx _) => 0x7E#8
  | .cmp (.imm _) => 0xC9#8
  | .cmp (.zp _) => 0xC5#8
  | .cmp (.zpx _) => 0xD5#8
  | .cmp (.abs _) => 0xCD#8
  | .cmp (.abx _) => 0xDD#8
  | .cmp (.aby _) => 0xD9#8
  | .cmp (.izx _) => 0xC1#8
  | .cmp (.izy _) => 0xD1#8
  | .cpx (.imm _) => 0xE0#8
  | .cpx (.zp _) => 0xE4#8
  | .cpx (.abs _) => 0xEC#8
  | .cpy (.imm _) => 0xC0#8
  | .cpy (.zp _) => 0xC4#8
  | .cpy (.abs _) => 0xCC#8
  | .inc (.zp _) => 0xE6#8
  | .inc (.zpx _) => 0xF6#8
  | .inc (.abs _) => 0xEE#8
  | .inc (.abx _) => 0xFE#8
  | .dec (.zp _) => 0xC6#8
  | .dec (.zpx _) => 0xD6#8
  | .dec (.abs _) => 0xCE#8
  | .dec (.abx _) => 0xDE#8
  | .inx => 0xE8#8
  | .iny => 0xC8#8
  | .dex => 0xCA#8
  | .dey => 0x88#8
  | .bcc _ => 0x90#8
  | .bcs _ => 0xB0#8
  | .beq _ => 0xF0#8
  | .bne _ => 0xD0#8
  | .bmi _ => 0x30#8
  | .bpl _ => 0x10#8
  | .bvc _ => 0x50#8
  | .bvs _ => 0x70#8
  | .jmp (.abs _) => 0x4C#8
  | .jmp (.ind _) => 0x6C#8
  | .jsr _ => 0x20#8
  | .rts => 0x60#8
  | .rti => 0x40#8
  | .pha => 0x48#8
  | .php => 0x08#8
  | .pla => 0x68#8
  | .plp => 0x28#8
  | .clc => 0x18#8
  | .sec => 0x38#8
  | .cld => 0xD8#8
  | .sed => 0xF8#8
  | .cli => 0x58#8
  | .sei => 0x78#8
  | .clv => 0xB8#8
  | .tax => 0xAA#8
  | .tay => 0xA8#8
  | .txa => 0x8A#8
  | .tya => 0x98#8
  | .tsx => 0xBA#8
  | .txs => 0x9A#8
  | .bit (.zp _) => 0x24#8
  | .bit (.abs _) => 0x2C#8
  | .nop => 0xEA#8
  | .brk => 0x00#8
  | .undefined op => op

/-- The operand bytes in address order, a word low byte first (R52, R55). -/
def Operand.bytes : Operand → List Byte
  | .imp | .acc => []
  | .imm v => [v]
  | .rel d => [d]
  | .zp b | .zpx b | .zpy b | .izx b | .izy b => [b]
  | .abs w | .abx w | .aby w | .ind w => [lo w, hi w]

/-- The bytes of an instruction (R52). -/
def encode (i : Instr) : List Byte := i.opcode :: i.operand.bytes

/-- The base cycles and page-penalty class of the instruction's row (R57, R162); an undefined byte reports 0 (R63, D4). -/
structure Cost where
  base : Nat
  pagePenalty : Bool
  deriving DecidableEq, Repr

def Instr.cost (i : Instr) : Cost :=
  match dispatch i.opcode with
  | some e => ⟨e.base, e.pagePenalty⟩
  | none => ⟨0, false⟩

/-- The three bytes, low first, of an instruction whose bits are `w`, numbered as opcode_table.json numbers them: bit 0 the
least significant bit of the first byte. Every bit from `nbits` on is 0. -/
def tableBytes (nbits w : Nat) : List Byte :=
  let v := w % 2 ^ nbits
  [BitVec.ofNat 8 v, BitVec.ofNat 8 (v / 256), BitVec.ofNat 8 (v / 65536)]

/-- What the decoder reads from a table word. -/
def decodeTableWord (nbits w : Nat) : Option Instr :=
  match decode (tableBytes nbits w) with
  | .ok (i, _) => some i
  | .error _ => none

end Sys2Proof
end

