-- ==== Sys2Proof/Machine/State.lean ====
section
/-! DEFINITION. The machine's state as plain data (10_state.md), the reasons a move can stop, and the state after reset. -/

namespace Sys2Proof.Machine

/-- The memory (R33, R35) as the list of its bytes that differ from `Config.unlistedByte`, addresses strictly rising. -/
abbrev Memory := List Host.Cell

/-- The canonical form: inside the 65536 addresses, strictly rising, and no entry equal to what an unlisted address reads
as. Equal memories in this form are equal lists. -/
abbrev Memory.wf (m : Memory) : Prop :=
  m.Pairwise (fun c d => c.1 < d.1) ∧ ∀ c ∈ m, c.1 < Config.memorySize ∧ c.2 ≠ Config.unlistedByte

/-- What the latest `step()` returned (30_encoding.md R63): nothing yet, `Ok(cycles)` or `Illegal(op, addr)`. The count that
goes with `Illegal` is always 0, so it is not stored: `State.reportedCycles` (Ops.lean) gives it. -/
inductive StepOutcome where
  | none
  | ok (cycles : Nat)
  | illegal (op : Byte) (addr : Addr)
  deriving DecidableEq, Repr

/-- Everything the spec gives the machine between two steps: the register file (R15, R17, R19, R20), the memory (R35), the
sticky undefined-opcode mark (R30); and the model's own record of what the latest step returned (log 5). -/
structure State where
  a : Byte
  x : Byte
  y : Byte
  sp : Byte
  pc : Addr
  p : Byte
  mem : Memory
  illegalSeen : Bool
  outcome : StepOutcome
  deriving DecidableEq, Repr

/-- Why a checked run stops. `step` itself never faults: it is total (R64). -/
inductive Fault where
  /-- Raised by `checkedStep` (Safety.lean) alone, where `step` returned `Illegal(op, addr)`: "a model should treat a state
  with `illegal_seen = true` as faulted and never final" (R141, U2). Safe: the checked run stops where the core could go on. -/
  | illegalOpcode (op : Byte) (addr : Addr)
  deriving DecidableEq, Repr

/-- Why a move is refused. All but the first are raised by the host interface (Machine/HostInterface.lean) alone. -/
inductive Refusal where
  /-- For an arm of `exec` without a meaning. No arm raises it. Safe. -/
  | notModelled (mnemonic : String)
  /-- A launch, or a register seed, with bit 5 of P clear: "A launch state with `P[5] = 0` is refused" (R22, R154). Safe. -/
  | launchBit5Clear
  /-- A step, or a program byte placed, before the memory is bound (R155, R156). Safe. -/
  | notConnected
  /-- The memory rebound in the middle of a run: "the model refuses it" (R155, D19). Safe. -/
  | rebindDuringRun
  /-- The host writes a register or a memory byte in the middle of a run (R157, D24, U11). Safe. -/
  | hostWriteDuringRun
  deriving DecidableEq, Repr

/-- What a meaning answers. -/
abbrev Result := Host.Outcome State Fault Refusal

/-- The state the model starts from: bit 5 of P and `illegalSeen` as R32 and R154 say, every launch parameter that R32
leaves open at the value Config names (log 1 to 4), and no step returned yet (log 5). -/
def State.reset : State where
  a := Config.initA
  x := Config.initX
  y := Config.initY
  sp := Config.initSP
  pc := Config.initPC
  p := Config.initP
  mem := []
  illegalSeen := false
  outcome := .none

end Sys2Proof.Machine
end

