-- ==== Sys2Proof/Machine/Flags.lean ====
section
/-! DEFINITION. The status register P (10_state.md R20 to R27) and every flag computation of the spec: `setNZ`, the ALU
sums, the comparison and the shifts. -/

namespace Sys2Proof.Machine

/-- The seven flags; bit 5 of P is not one (R20, C7). -/
inductive Flag where
  | n | v | b | d | i | z | c
  deriving DecidableEq, Repr

/-- "packed into one 8-bit register, bit positions fixed" (R20). -/
def Flag.bit : Flag → Nat
  | .n => 7
  | .v => 6
  | .b => 4
  | .d => 3
  | .i => 2
  | .z => 1
  | .c => 0

/-- The byte with only the flag's bit set. -/
def Flag.mask (f : Flag) : Byte := BitVec.twoPow 8 f.bit

/-- `P.f` (R10). -/
def State.flag (s : State) (f : Flag) : Bool := s.p.getLsbD f.bit

/-- Bit 5 of P, which is no flag and reads 1 (R20, R22). -/
def State.bit5 (s : State) : Bool := s.p.getLsbD 5

/-- `P.f <- v`: that bit of P only (R10, R21). -/
def State.setFlag (s : State) (f : Flag) (v : Bool) : State :=
  { s with p := if v then s.p ||| f.mask else s.p &&& ~~~f.mask }

/-- P as it reads: bit 5 "reads 1" (R20). -/
def State.readP (s : State) : Byte := s.p ||| 0x20#8

/-- `P <- v | 0x20`: every write of the whole of P (R22). -/
def State.writeP (s : State) (v : Byte) : State := { s with p := v ||| 0x20#8 }

/-- `setNZ(v)` (R27). -/
def State.setNZ (s : State) (v : Byte) : State := (s.setFlag .z (v == 0)).setFlag .n v.msb

/-- An 8-bit result with the carry and the overflow it leaves. -/
structure AluResult where
  value : Byte
  carry : Bool
  overflow : Bool
  deriving DecidableEq, Repr

/-- The binary sum of ADC (R88): `t <- A + M + P.C`, its carry out of bit 7, its signed overflow. D plays no part (R24). -/
def addWithCarry (a m : Byte) (c : Bool) : AluResult :=
  let t := a.toNat + m.toNat + c.toNat
  let r := BitVec.ofNat 8 t
  { value := r, carry := decide (t > 255), overflow := ((a ^^^ r) &&& (m ^^^ r) &&& 0x80#8) != 0 }

/-- The binary difference of SBC (R89): `t <- A + (255 − M) + P.C`; carry set means no borrow. -/
def subWithBorrow (a m : Byte) (c : Bool) : AluResult :=
  let t := a.toNat + (255 - m.toNat) + c.toNat
  let r := BitVec.ofNat 8 t
  { value := r, carry := decide (t > 255), overflow := ((a ^^^ m) &&& (a ^^^ r) &&& 0x80#8) != 0 }

/-- `Compare(R, M)` (R97): C from the unsigned order, Z from equality, N from the difference; V and every register kept. -/
def State.compare (s : State) (r m : Byte) : State :=
  ((s.setFlag .c (decide (r.toNat ≥ m.toNat))).setFlag .z (r == m)).setFlag .n (r - m).msb

/-- The four shifts and rotates. -/
inductive ShiftKind where
  | asl | lsr | rol | ror
  deriving DecidableEq, Repr

/-- The result byte of a shift or rotate of `v` with the prior carry `c` (R93 to R96). -/
def ShiftKind.result : ShiftKind → Byte → Bool → Byte
  | .asl, v, _ => v <<< 1
  | .lsr, v, _ => v >>> 1
  | .rol, v, c => v <<< 1 ||| (if c then 0x01#8 else 0x00#8)
  | .ror, v, c => v >>> 1 ||| (if c then 0x80#8 else 0x00#8)

/-- "carry-out is the bit shifted off" (R93 to R96). -/
def ShiftKind.carryOut : ShiftKind → Byte → Bool
  | .asl, v | .rol, v => v.getLsbD 7
  | .lsr, v | .ror, v => v.getLsbD 0

end Sys2Proof.Machine
end

