-- ==== Sys2Proof/Machine/Ops.lean ====
section
/-! DEFINITION. The named operations over memory and registers: one byte read and written (20_memory.md R34, R35), the data
registers, instruction fetch (30_encoding.md R54, R62), the stack (R42, R43), the undefined-opcode outcome (60_exceptions.md
R141), the return from interrupt (46_jump_call.md R119), and the cycle cost (70_reset_and_hazards.md R161). -/

namespace Sys2Proof.Machine

/-- The byte at an address: the listed one, else `Config.unlistedByte`. -/
def Memory.read : Memory → Addr → Byte
  | [], _ => Config.unlistedByte
  | c :: m, a => if c.1 = a.toNat then c.2 else Memory.read m a

/-- Lists `v` at `k` in a rising list. -/
def Memory.put : Memory → Nat → Byte → Memory
  | [], k, v => [(k, v)]
  | c :: m, k, v =>
    if k < c.1 then (k, v) :: c :: m
    else if c.1 = k then (k, v) :: m
    else c :: Memory.put m k v

/-- Takes `k` off the list. -/
def Memory.drop (m : Memory) (k : Nat) : Memory := m.filter (fun c => c.1 != k)

/-- `mem(a) <- v` (R35), in canonical form: writing what an unlisted address reads as takes the entry off. -/
def Memory.write (m : Memory) (a : Addr) (v : Byte) : Memory :=
  if v = Config.unlistedByte then Memory.drop m a.toNat else Memory.put m a.toNat v

/-- `MemRead(a, 1)` (R34): total, no side effect (R40). -/
def State.read (s : State) (a : Addr) : Byte := s.mem.read a

/-- `MemWrite(a, 1, v)` (R34): total, that address only. -/
def State.write (s : State) (a : Addr) (v : Byte) : State := { s with mem := s.mem.write a v }

/-- The word whose low and high bytes stand at two addresses, low byte read first (R36). -/
def State.readWord (s : State) (low high : Addr) : Addr := word (s.read low) (s.read high)

/-- The 8-bit registers other than P. -/
inductive Reg where
  | a | x | y | sp
  deriving DecidableEq, Repr

def State.reg (s : State) : Reg → Byte
  | .a => s.a
  | .x => s.x
  | .y => s.y
  | .sp => s.sp

def State.setReg (s : State) (r : Reg) (v : Byte) : State :=
  match r with
  | .a => { s with a := v }
  | .x => { s with x := v }
  | .y => { s with y := v }
  | .sp => { s with sp := v }

/-- `PC <- target` (R10). -/
def State.jump (s : State) (target : Addr) : State := { s with pc := target }

/-- `Fetch8()` (R54): the byte at PC, and PC one further, mod 65536. -/
def State.fetch8 (s : State) : Byte × State := (s.read s.pc, s.jump (s.pc + 1))

/-- The fetch half of a step (R62): the opcode byte, then the operand bytes its entry takes, in address order. The state it
gives has PC behind the instruction, as every handler sees it (R18). -/
def fetchInstr (s : State) : Instr × State :=
  let (op, s) := s.fetch8
  match dispatch op with
  | none => (.undefined op, s)
  | some e =>
    match e.format with
    | .f1 i => (i, s)
    | .f2 mk =>
      let (b, s) := s.fetch8
      (mk b, s)
    | .f3 mk =>
      let (l, s) := s.fetch8
      let (h, s) := s.fetch8
      (mk (word l h), s)

/-- The stack address an SP value designates: `0x0100 + SP`, always in page 1 (R19). -/
def stackAddr (sp : Byte) : Addr := Config.stackBase + zext16 sp

/-- `Push(v)` (R42): store, then decrement. -/
def State.push (s : State) (v : Byte) : State :=
  let s := s.write (stackAddr s.sp) v
  s.setReg .sp (s.sp - 1)

/-- `Pull()` (R43): increment, then load. -/
def State.pull (s : State) : Byte × State :=
  let s := s.setReg .sp (s.sp + 1)
  (s.read (stackAddr s.sp), s)

/-- The undefined-opcode outcome (R141), the core's one exception-like event: run with PC = a + 1, it sets the sticky mark and
reports `Illegal(op, a)`. No register, no flag and no byte of memory changes; nothing is saved and no vector is read (R145). -/
def State.raiseIllegal (s : State) (op : Byte) : State :=
  { s with illegalSeen := true, outcome := .illegal op (s.pc - 1) }

/-- The return from interrupt (R119, D12): P with bit 5 forced to 1, then PC low, then PC high, and no + 1. -/
def State.returnFromInterrupt (s : State) : State :=
  let (v, s) := s.pull
  let s := s.writeP v
  let (l, s) := s.pull
  let (h, s) := s.pull
  s.jump (word l h)

/-- `Cycles(e, ctx, extra)` (R161). -/
def cycles (cost : Cost) (crossed : Bool) (extra : Nat) : Nat :=
  cost.base + (if cost.pagePenalty && crossed then 1 else 0) + extra

/-- `return Ok(Cycles(e, ctx, extra))` (R62): the end of every defined instruction. -/
def State.finish (s : State) (i : Instr) (crossed : Bool) (extra : Nat) : State :=
  { s with outcome := .ok (cycles i.cost crossed extra) }

/-- The cycle count the latest step reported: n for `Ok(n)`, and 0 for `Illegal(op, a)` (R63, R141, R163; D4, log 10). -/
def State.reportedCycles (s : State) : Option Nat :=
  match s.outcome with
  | .none => none
  | .ok n => some n
  | .illegal _ _ => some 0

/-- Stores bytes at consecutive addresses, mod 65536 (R52). -/
def State.storeBytes (s : State) (a : Addr) : List Byte → State
  | [] => s
  | v :: vs => State.storeBytes (s.write a v) (a + 1) vs

/-- The loader's work (R156): the listed bytes, in order, over a memory with nothing listed. -/
def Memory.ofCells (cells : List (Addr × Byte)) : Memory :=
  cells.foldl (fun m c => m.write c.1 c.2) []

end Sys2Proof.Machine
end

