-- ==== Sys2Proof/Machine/Operands.lean ====
section
/-! DEFINITION. The addressing-mode resolvers (40_addressing_modes.md R65 to R77), and the reading and writing of a resolved
operand (R78, R79). A resolver runs with the operand bytes already fetched: it changes no state, it only reads. -/

namespace Sys2Proof.Machine

/-- The addressing context (R28), which lives inside one step. `ea` is present in every mode but imp, acc and imm (in rel once
`Ctx.withTarget` has filled it), `imm` in imm and rel; a field that is not present is 0 and no handler looks at it (R78; log 8). -/
structure Ctx where
  mode : Mode
  ea : Addr := 0
  imm : Byte := 0
  crossed : Bool := false
  deriving DecidableEq, Repr

/-- `hi(base) != hi(ea)`: the page-boundary-crossed indicator of an indexed mode (R73, R74, R77, R80). -/
def pageCrossed (base ea : Addr) : Bool := hi base != hi ea

/-- The address of a pointer's high byte in the JMP-indirect quirk: `(ptr & 0xFF00) + ((ptr + 1) mod 256)` (R75, D5). -/
def quirkHigh (ptr : Addr) : Addr := word (lo ptr + 1) (hi ptr)

/-- The word a zero-page pointer holds; the high byte's address wraps in page 0 (R76, R77, D6). -/
def State.zeroPageWord (s : State) (b : Byte) : Addr := s.readWord (zext16 b) (zext16 (b + 1))

/-- `base + index` as a 16-bit address, with its page-crossing indicator (R73, R74, R77). -/
def indexed (mode : Mode) (base : Addr) (index : Byte) : Ctx :=
  let ea := base + zext16 index
  { mode := mode, ea := ea, crossed := pageCrossed base ea }

/-- `Resolve(mode)` (R62): the resolver of each mode, over the assembled operand. -/
def resolve (o : Operand) (s : State) : Ctx :=
  match o with
  | .imp => { mode := .imp }
  | .acc => { mode := .acc }
  | .imm v => { mode := .imm, imm := v }
  | .zp b => { mode := .zp, ea := zext16 b }
  | .zpx b => { mode := .zpx, ea := zext16 (b + s.x) }
  | .zpy b => { mode := .zpy, ea := zext16 (b + s.y) }
  | .rel d => { mode := .rel, imm := d }
  | .abs w => { mode := .abs, ea := w }
  | .abx w => indexed .abx w s.x
  | .aby w => indexed .aby w s.y
  | .ind w => { mode := .ind, ea := s.readWord w (quirkHigh w) }
  | .izx b => { mode := .izx, ea := s.zeroPageWord (b + s.x) }
  | .izy b => indexed .izy (s.zeroPageWord b) s.y

/-- The effective address of the Relative mode (R28): R71 leaves it out of the resolver and to the branch handler, which adds
the displacement in `ctx.imm` to `base`, the address of the instruction after the branch, mod 65536 (R107; log 8). -/
def Ctx.withTarget (ctx : Ctx) (base : Addr) : Ctx := { ctx with ea := base + sext16 ctx.imm }

/-- `ReadOperand(ctx)` (R78). -/
def State.readOperand (s : State) (ctx : Ctx) : Byte :=
  if ctx.mode = .acc then s.a
  else if ctx.mode = .imm then ctx.imm
  else s.read ctx.ea

/-- `WriteOperand(ctx, v)` (R79). -/
def State.writeOperand (s : State) (ctx : Ctx) (v : Byte) : State :=
  if ctx.mode = .acc then s.setReg .a v
  else s.write ctx.ea v

end Sys2Proof.Machine
end

