-- ==== Sys2Proof/Machine/ArithmeticLogic.lean ====
section
/-! DEFINITION. Arithmetic and logic (42_arithmetic_logic.md). All of it is binary whatever P.D holds (R24, D7). -/

namespace Sys2Proof.Machine

/-- ADC and SBC (R88, R89): an ALU sum over A, the operand and the prior carry; A, then C, V, Z and N. -/
def arithmetic (i : Instr) (alu : Byte → Byte → Bool → AluResult) (s : State) : Result :=
  let ctx := resolve i.operand s
  let r := alu s.a (s.readOperand ctx) (s.flag .c)
  .next (((((s.setFlag .c r.carry).setFlag .v r.overflow).setReg .a r.value).setNZ r.value).finish i ctx.crossed 0)

/-- AND, ORA, EOR (R90 to R92): `A <- A op M; setNZ(A)`. -/
def logic (i : Instr) (op : Byte → Byte → Byte) (s : State) : Result :=
  let ctx := resolve i.operand s
  let r := op s.a (s.readOperand ctx)
  .next (((s.setReg .a r).setNZ r).finish i ctx.crossed 0)

/-- ADC (R88). -/
def execAdc (f : AluForm) (s : State) : Result := arithmetic (.adc f) addWithCarry s

/-- SBC (R89). -/
def execSbc (f : AluForm) (s : State) : Result := arithmetic (.sbc f) subWithBorrow s

/-- AND (R90). -/
def execAnd (f : AluForm) (s : State) : Result := logic (.and f) (· &&& ·) s

/-- ORA (R91). -/
def execOra (f : AluForm) (s : State) : Result := logic (.ora f) (· ||| ·) s

/-- EOR (R92). -/
def execEor (f : AluForm) (s : State) : Result := logic (.eor f) (· ^^^ ·) s

end Sys2Proof.Machine
end

