-- ==== Sys2Proof/Machine/BitControl.lean ====
section
/-! DEFINITION. Bit test, no-operation, break (49_bit_control_break.md), and the undefined opcode bytes (60_exceptions.md R141). -/

namespace Sys2Proof.Machine

/-- BIT (R137): N and V from the operand's bits 7 and 6, Z from A AND the operand; A is kept. -/
def execBit (f : BitForm) (s : State) : Result :=
  let ctx := resolve f.operand s
  let m := s.readOperand ctx
  .next ((((s.setFlag .n (m.getLsbD 7)).setFlag .v (m.getLsbD 6)).setFlag .z (s.a &&& m == 0)).finish (.bit f) ctx.crossed 0)

/-- NOP (R138): "consumes cycles only". -/
def execNop (s : State) : Result := .next (s.finish .nop false 0)

/-- BRK in its minimal form (R139, D11): B set; nothing pushed, no vector read, I and D kept, one byte long. -/
def execBrk (s : State) : Result := .next ((s.setFlag .b true).finish .brk false 0)

/-- An undefined opcode byte (R141): the undefined-opcode outcome, and the run may go on at a + 1 (log 6). -/
def execUndefined (op : Byte) (s : State) : Result := .next (s.raiseIllegal op)

end Sys2Proof.Machine
end

