-- ==== Sys2Proof/Machine/Branch.lean ====
section
/-! DEFINITION. Conditional branches (45_branch.md). -/

namespace Sys2Proof.Machine

/-- The addressing context of a branch, complete: the resolver's displacement (R71), and the target as `ea` (R28). -/
def branchCtx (d : Byte) (s : State) : Ctx := (resolve (.rel d) s).withTarget s.pc

/-- `Branch(cond)` (R107), with PC = a + 2: not taken, nothing but the 2 base cycles; taken, PC at the context's `ea` and one
cycle more, two where the target's page is not that of the instruction after the branch (C6). -/
def branch (i : Instr) (d : Byte) (cond : Bool) (s : State) : Result :=
  let ctx := branchCtx d s
  if cond then
    .next ((s.jump ctx.ea).finish i ctx.crossed (1 + if pageCrossed s.pc ctx.ea then 1 else 0))
  else
    .next (s.finish i ctx.crossed 0)

/-- BCC (R108): taken where P.C = 0. -/
def execBcc (d : Byte) (s : State) : Result := branch (.bcc d) d (s.flag .c == false) s

/-- BCS (R109): taken where P.C = 1. -/
def execBcs (d : Byte) (s : State) : Result := branch (.bcs d) d (s.flag .c == true) s

/-- BEQ (R110): taken where P.Z = 1. -/
def execBeq (d : Byte) (s : State) : Result := branch (.beq d) d (s.flag .z == true) s

/-- BNE (R111): taken where P.Z = 0. -/
def execBne (d : Byte) (s : State) : Result := branch (.bne d) d (s.flag .z == false) s

/-- BMI (R112): taken where P.N = 1. -/
def execBmi (d : Byte) (s : State) : Result := branch (.bmi d) d (s.flag .n == true) s

/-- BPL (R113): taken where P.N = 0. -/
def execBpl (d : Byte) (s : State) : Result := branch (.bpl d) d (s.flag .n == false) s

/-- BVC (R114): taken where P.V = 0. -/
def execBvc (d : Byte) (s : State) : Result := branch (.bvc d) d (s.flag .v == false) s

/-- BVS (R115): taken where P.V = 1. -/
def execBvs (d : Byte) (s : State) : Result := branch (.bvs d) d (s.flag .v == true) s

end Sys2Proof.Machine
end

