-- ==== Sys2Proof/Machine/CompareIncDec.lean ====
section
/-! DEFINITION. Compare, increment and decrement (44_compare_incdec.md). -/

namespace Sys2Proof.Machine

/-- CMP, CPX, CPY (R98 to R100): `Compare(R, ReadOperand(ctx))`. -/
def compareReg (i : Instr) (r : Reg) (s : State) : Result :=
  let ctx := resolve i.operand s
  .next ((s.compare (s.reg r) (s.readOperand ctx)).finish i ctx.crossed 0)

/-- INC and DEC (R101, R102): the byte at EA read once and written once, mod 256; Z and N. -/
def stepMemory (i : Instr) (delta : Byte) (s : State) : Result :=
  let ctx := resolve i.operand s
  let r := s.read ctx.ea + delta
  .next (((s.write ctx.ea r).setNZ r).finish i ctx.crossed 0)

/-- INX, INY, DEX, DEY (R103 to R106): a register stepped mod 256; Z and N. -/
def stepReg (i : Instr) (r : Reg) (delta : Byte) (s : State) : Result :=
  let v := s.reg r + delta
  .next (((s.setReg r v).setNZ v).finish i false 0)

/-- CMP (R98). -/
def execCmp (f : AluForm) (s : State) : Result := compareReg (.cmp f) .a s

/-- CPX (R99). -/
def execCpx (f : IndexCompareForm) (s : State) : Result := compareReg (.cpx f) .x s

/-- CPY (R100). -/
def execCpy (f : IndexCompareForm) (s : State) : Result := compareReg (.cpy f) .y s

/-- INC (R101). -/
def execInc (f : IncForm) (s : State) : Result := stepMemory (.inc f) 1 s

/-- DEC (R102). -/
def execDec (f : IncForm) (s : State) : Result := stepMemory (.dec f) (-1) s

/-- INX (R103). -/
def execInx (s : State) : Result := stepReg .inx .x 1 s

/-- INY (R104). -/
def execIny (s : State) : Result := stepReg .iny .y 1 s

/-- DEX (R105). -/
def execDex (s : State) : Result := stepReg .dex .x (-1) s

/-- DEY (R106). -/
def execDey (s : State) : Result := stepReg .dey .y (-1) s

end Sys2Proof.Machine
end

