-- ==== Sys2Proof/Machine/FlagTransfer.lean ====
section
/-! DEFINITION. Flag and register-transfer instructions (48_flags_transfer.md). -/

namespace Sys2Proof.Machine

/-- A flag instruction (R124 to R130): one flag set or cleared, nothing else. -/
def writeFlag (i : Instr) (f : Flag) (v : Bool) (s : State) : Result := .next ((s.setFlag f v).finish i false 0)

/-- A transfer (R131 to R135): the register copied, Z and N. -/
def transfer (i : Instr) (src dst : Reg) (s : State) : Result :=
  let v := s.reg src
  .next (((s.setReg dst v).setNZ v).finish i false 0)

/-- CLC (R124). -/
def execClc (s : State) : Result := writeFlag .clc .c false s

/-- SEC (R125). -/
def execSec (s : State) : Result := writeFlag .sec .c true s

/-- CLD (R126). -/
def execCld (s : State) : Result := writeFlag .cld .d false s

/-- SED (R127). -/
def execSed (s : State) : Result := writeFlag .sed .d true s

/-- CLI (R128). -/
def execCli (s : State) : Result := writeFlag .cli .i false s

/-- SEI (R129). -/
def execSei (s : State) : Result := writeFlag .sei .i true s

/-- CLV (R130). -/
def execClv (s : State) : Result := writeFlag .clv .v false s

/-- TAX (R131). -/
def execTax (s : State) : Result := transfer .tax .a .x s

/-- TAY (R132). -/
def execTay (s : State) : Result := transfer .tay .a .y s

/-- TXA (R133). -/
def execTxa (s : State) : Result := transfer .txa .x .a s

/-- TYA (R134). -/
def execTya (s : State) : Result := transfer .tya .y .a s

/-- TSX (R135). -/
def execTsx (s : State) : Result := transfer .tsx .sp .x s

/-- TXS (R136): no flag ("N,Z except TXS"). -/
def execTxs (s : State) : Result := .next ((s.setReg .sp s.x).finish .txs false 0)

end Sys2Proof.Machine
end

