-- ==== Sys2Proof/Machine/JumpCall.lean ====
section
/-! DEFINITION. Jump, call and return (46_jump_call.md). -/

namespace Sys2Proof.Machine

/-- JMP (R116): `PC <- ctx.ea`, direct or through the pointer with its page quirk. -/
def execJmp (f : JmpForm) (s : State) : Result :=
  .next ((s.jump (resolve f.operand s).ea).finish (.jmp f) false 0)

/-- JSR (R117): pushes the address of its own last byte, high byte first, then jumps. The target was fetched before (D22). -/
def execJsr (target : Addr) (s : State) : Result :=
  let ret := s.pc - 1
  .next ((((s.push (hi ret)).push (lo ret)).jump target).finish (.jsr target) false 0)

/-- RTS (R118): pulls low, then high, and resumes at that word + 1. -/
def execRts (s : State) : Result :=
  let (l, s) := s.pull
  let (h, s) := s.pull
  .next ((s.jump (word l h + 1)).finish .rts false 0)

/-- RTI (R119). -/
def execRti (s : State) : Result := .next (s.returnFromInterrupt.finish .rti false 0)

end Sys2Proof.Machine
end

