-- ==== Sys2Proof/Machine/LoadStore.lean ====
section
/-! DEFINITION. Loads and stores (41_load_store.md). -/

namespace Sys2Proof.Machine

/-- A load (R81 to R83): `M <- ReadOperand(ctx); R <- M; setNZ(R)`. -/
def loadInto (i : Instr) (r : Reg) (s : State) : Result :=
  let ctx := resolve i.operand s
  let m := s.readOperand ctx
  .next (((s.setReg r m).setNZ m).finish i ctx.crossed 0)

/-- A store (R84 to R86): `MemWrite(ctx.ea, 1, R)`; no flag, and the byte there is not read. -/
def storeFrom (i : Instr) (r : Reg) (s : State) : Result :=
  let ctx := resolve i.operand s
  .next ((s.write ctx.ea (s.reg r)).finish i ctx.crossed 0)

/-- LDA (R81). -/
def execLda (f : AluForm) (s : State) : Result := loadInto (.lda f) .a s

/-- LDX (R82). -/
def execLdx (f : LdxForm) (s : State) : Result := loadInto (.ldx f) .x s

/-- LDY (R83). -/
def execLdy (f : LdyForm) (s : State) : Result := loadInto (.ldy f) .y s

/-- STA (R84). -/
def execSta (f : StaForm) (s : State) : Result := storeFrom (.sta f) .a s

/-- STX (R85). -/
def execStx (f : StxForm) (s : State) : Result := storeFrom (.stx f) .x s

/-- STY (R86). -/
def execSty (f : StyForm) (s : State) : Result := storeFrom (.sty f) .y s

end Sys2Proof.Machine
end

