-- ==== Sys2Proof/Machine/Shift.lean ====
section
/-! DEFINITION. Shifts and rotates (43_shift_rotate.md). -/

namespace Sys2Proof.Machine

/-- A shift or rotate (R93 to R96): the operand read once, C from the bit shifted off, the result written back to A or
memory, then Z and N. The carry a rotate brings in is the one before the instruction. -/
def shift (i : Instr) (k : ShiftKind) (s : State) : Result :=
  let ctx := resolve i.operand s
  let v := s.readOperand ctx
  let r := k.result v (s.flag .c)
  .next ((((s.setFlag .c (k.carryOut v)).writeOperand ctx r).setNZ r).finish i ctx.crossed 0)

/-- ASL (R93). -/
def execAsl (f : ShiftForm) (s : State) : Result := shift (.asl f) .asl s

/-- LSR (R94). -/
def execLsr (f : ShiftForm) (s : State) : Result := shift (.lsr f) .lsr s

/-- ROL (R95). -/
def execRol (f : ShiftForm) (s : State) : Result := shift (.rol f) .rol s

/-- ROR (R96). -/
def execRor (f : ShiftForm) (s : State) : Result := shift (.ror f) .ror s

end Sys2Proof.Machine
end

