-- ==== Sys2Proof/Machine/Stack.lean ====
section
/-! DEFINITION. Stack instructions (47_stack.md). -/

namespace Sys2Proof.Machine

/-- PHA (R120). -/
def execPha (s : State) : Result := .next ((s.push s.a).finish .pha false 0)

/-- PHP (R121): the pushed byte has bits 5 and 4 set (D9); P itself is kept. -/
def execPhp (s : State) : Result := .next ((s.push (s.p ||| 0x30#8)).finish .php false 0)

/-- PLA (R122). -/
def execPla (s : State) : Result :=
  let (v, s) := s.pull
  .next (((s.setReg .a v).setNZ v).finish .pla false 0)

/-- PLP (R123): every flag replaced, bit 5 forced to 1 (C7). -/
def execPlp (s : State) : Result :=
  let (v, s) := s.pull
  .next ((s.writeP v).finish .plp false 0)

end Sys2Proof.Machine
end

