-- ==== Sys2Proof/Machine/Step.lean ====
section
/-! DEFINITION. One call of `step()` (30_encoding.md R62): fetch, resolve, handle. -/

namespace Sys2Proof.Machine

/-- One instruction, atomically (R13, R29). Total: every byte in every state gives one next state (R64). -/
def step (s : State) : Host.Outcome State Fault Refusal :=
  let (i, s) := fetchInstr s
  exec i s

/-- `s` with an instruction of opcode_table.json (bits from `nbits` on zero) stored at PC, where the next step fetches. It
stands for the excluded loader's work (R156, log 9). -/
def State.withFetchWord (s : State) (nbits w : Nat) : State := s.storeBytes s.pc (tableBytes nbits w)

end Sys2Proof.Machine
end

