-- ==== Sys2Proof/Machine/HostInterface.lean ====
section
/-! DEFINITION. The host interface of the core (70_reset_and_hazards.md R154 to R157): the launch, the moves before a run, the
reads between steps, and what the model refuses. -/

namespace Sys2Proof.Machine

/-- The launch parameters (00_scope.md R7); `initMem` is the loader's bytes, in order. -/
structure LaunchParams where
  initA : Byte
  initX : Byte
  initY : Byte
  initSP : Byte
  initP : Byte
  initPC : Addr
  initMem : List (Addr × Byte)
  deriving DecidableEq, Repr

/-- The launch state (R32, R154). "A launch state with `P[5] = 0` is refused" (R22). -/
def launch (l : LaunchParams) : Result :=
  if l.initP.getLsbD 5 then
    .next { a := l.initA, x := l.initX, y := l.initY, sp := l.initSP, pc := l.initPC, p := l.initP,
            mem := Memory.ofCells l.initMem, illegalSeen := false, outcome := .none }
  else .refused .launchBit5Clear

/-- The registers the host reaches (R157). -/
inductive HostReg where
  | a | x | y | pc | sp | p
  deriving DecidableEq, Repr

/-- "read-only inspection of A, X, Y, PC, SP, P" (R157), P with bit 5 = 1; an 8-bit register in the low byte. -/
def State.hostRead (s : State) : HostReg → Addr
  | .a => zext16 s.a
  | .x => zext16 s.x
  | .y => zext16 s.y
  | .pc => s.pc
  | .sp => zext16 s.sp
  | .p => zext16 s.readP

/-- Register seeding for test setup (R157); an 8-bit register takes the low byte. -/
def State.hostWrite (s : State) (r : HostReg) (v : Addr) : State :=
  match r with
  | .a => s.setReg .a (lo v)
  | .x => s.setReg .x (lo v)
  | .y => s.setReg .y (lo v)
  | .pc => s.jump v
  | .sp => s.setReg .sp (lo v)
  | .p => { s with p := lo v }

/-- Before the first step the host sets the state up, with or without a memory bound; after it, the run goes on. -/
inductive HostSession where
  | setup (connected : Bool) (s : State)
  | running (s : State)
  deriving DecidableEq, Repr

/-- Nothing bound and no register seeded yet. -/
def HostSession.start : HostSession := .setup false State.reset

/-- The host's moves (R156, R157). `connect` binds a memory with its contents; `place` is the loader putting one byte. -/
inductive HostMove where
  | connect (contents : List (Addr × Byte))
  | place (addr : Addr) (v : Byte)
  | seed (r : HostReg) (v : Addr)
  | step
  deriving DecidableEq, Repr

/-- One move of the host. During a run only `step` is left: a rebinding (R155, D19) and a mutation (R157, D24) are refused. -/
def HostSession.act : HostSession → HostMove → Host.Outcome HostSession Fault Refusal
  | .setup _ s, .connect contents => .next (.setup true { s with mem := Memory.ofCells contents })
  | .setup true s, .place a v => .next (.setup true (s.write a v))
  | .setup false _, .place _ _ => .refused .notConnected
  | .setup c s, .seed r v =>
    if r = .p ∧ v.getLsbD 5 = false then .refused .launchBit5Clear
    else .next (.setup c (s.hostWrite r v))
  | .setup false _, .step => .refused .notConnected
  | .setup true s, .step =>
    match Sys2Proof.Machine.step s with
    | .next t => .next (.running t)
    | .fault e => .fault e
    | .refused e => .refused e
  | .running s, .step =>
    match Sys2Proof.Machine.step s with
    | .next t => .next (.running t)
    | .fault e => .fault e
    | .refused e => .refused e
  | .running _, .connect _ => .refused .rebindDuringRun
  | .running _, .place _ _ => .refused .hostWriteDuringRun
  | .running _, .seed _ _ => .refused .hostWriteDuringRun

end Sys2Proof.Machine
end

