-- ==== Sys2Proof/Safety.lean ====
section
/-! DEFINITION. What counts as a safe run: one in which no undefined opcode byte was executed (60_exceptions.md R141, U2). -/

namespace Sys2Proof.Machine

/-- "a model should treat a state with `illegal_seen = true` as faulted and never final" (R141). -/
abbrev State.Faulted (s : State) : Prop := s.illegalSeen = true

/-- A run's end (95_test_vectors.md L3): its end address reached, and no undefined opcode on the way. -/
abbrev State.FinalAt (s : State) (endAddr : Addr) : Prop := s.pc = endAddr ∧ ¬ s.Faulted

/-- What the machine keeps (10_state.md R22, 20_memory.md R35): bit 5 of P is 1, and the memory is in canonical form. -/
structure State.Inv (s : State) : Prop where
  bit5 : s.bit5 = true
  mem : s.mem.wf

/-- A step that stops with a fault where `step()` returned `Illegal(op, a)`: U2's treatment of the undefined bytes. -/
def checkedStep (s : State) : Result :=
  match step s with
  | .next t =>
    match t.outcome with
    | .illegal op a => .fault (.illegalOpcode op a)
    | _ => .next t
  | r => r

/-- `k` checked steps; a run that gets through has executed no undefined opcode. -/
def checkedRun : Nat → State → Result
  | 0, s => .next s
  | k + 1, s =>
    match checkedStep s with
    | .next t => checkedRun k t
    | r => r

end Sys2Proof.Machine
end

