-- ==== Sys2Proof/Certificates/Slice0/Obligations.lean ====
section
/-! DEFINITION. The statements for the provers. First the words they share: what a next state keeps, what it sets, what the
step reports. A statement about an instruction says that `exec` answers a next state for every form and every state, and what
that state holds; its frame is `Frame`. -/

namespace Sys2Proof.Machine.Claims

/-- A, X, Y and SP keep their values but for the registers listed. -/
def KeepsRegs (rs : List Reg) (s t : State) : Prop := ∀ r, r ∉ rs → t.reg r = s.reg r

/-- Every flag but those listed, and bit 5 of P, keeps its value. -/
def KeepsFlags (fs : List Flag) (s t : State) : Prop := (∀ f, f ∉ fs → t.flag f = s.flag f) ∧ t.bit5 = s.bit5

/-- Every byte outside the listed addresses reads as before. -/
def KeepsMemory (stored : List Addr) (s t : State) : Prop := ∀ a, a ∉ stored → t.read a = s.read a

/-- The frame: the registers, flags and addresses that may change; the undefined-opcode mark is kept. -/
def Frame (rs : List Reg) (fs : List Flag) (stored : List Addr) (s t : State) : Prop :=
  KeepsRegs rs s t ∧ KeepsFlags fs s t ∧ KeepsMemory stored s t ∧ t.illegalSeen = s.illegalSeen

/-- Z and N are those of the byte `v` (R27). -/
def SetsNZ (v : Byte) (t : State) : Prop := t.flag .z = decide (v.toNat = 0) ∧ t.flag .n = v.getLsbD 7

/-- `exec` answers a next state, and that state satisfies `post`. -/
def Completes (i : Instr) (s : State) (post : State → Prop) : Prop := ∃ t, exec i s = .next t ∧ post t

/-- The operand's effective address and page-crossing mark in `s`. -/
def eaOf (i : Instr) (s : State) : Addr := (resolve i.operand s).ea
def crossedOf (i : Instr) (s : State) : Bool := (resolve i.operand s).crossed

/-- The operand byte the instruction reads in `s`. -/
def operandOf (i : Instr) (s : State) : Byte := s.readOperand (resolve i.operand s)

/-- The step reports the row's base cycles, one more where the row is penalised and the page was crossed (R161). -/
def ReportsCost (i : Instr) (s t : State) : Prop :=
  t.outcome = .ok (i.cost.base + if i.cost.pagePenalty = true ∧ crossedOf i s = true then 1 else 0)

/-- `P.f` as a number (R9). -/
def bitOf (b : Bool) : Nat := if b then 1 else 0

/-- A load of `r` (R81 to R83). -/
def Loads (i : Instr) (r : Reg) (s : State) : Prop :=
  Completes i s fun t =>
    t.reg r = operandOf i s ∧ SetsNZ (operandOf i s) t ∧ t.pc = s.pc ∧ ReportsCost i s t ∧ Frame [r] [.n, .z] [] s t

/-- A store of `r` (R84 to R86). -/
def Stores (i : Instr) (r : Reg) (s : State) : Prop :=
  Completes i s fun t =>
    t.read (eaOf i s) = s.reg r ∧ t.pc = s.pc ∧ t.outcome = .ok i.cost.base ∧ Frame [] [] [eaOf i s] s t

/-- A result `r` in A with its Z and N, all else but `fs` kept. -/
def ComputesA (i : Instr) (fs : List Flag) (s : State) (r : Byte) (flags : State → Prop) : Prop :=
  Completes i s fun t =>
    t.a = r ∧ SetsNZ r t ∧ flags t ∧ t.pc = s.pc ∧ ReportsCost i s t ∧ Frame [.a] fs [] s t

/-- A shift: the result in A (accumulator form) or at EA, C the bit shifted off, fixed cycles (R93 to R96). -/
def Shifts (i : Instr) (f : ShiftForm) (s : State) (r : Nat) (carry : Bool) : Prop :=
  Completes i s fun t =>
    t.flag .c = carry ∧ SetsNZ (BitVec.ofNat 8 r) t ∧ t.pc = s.pc ∧ t.outcome = .ok i.cost.base ∧
    if f = .acc then t.a.toNat = r ∧ Frame [.a] [.n, .z, .c] [] s t
    else (t.read (eaOf i s)).toNat = r ∧ Frame [] [.n, .z, .c] [eaOf i s] s t

/-- C, Z and N of a comparison of `r` with `m` (R97). -/
def SetsCompare (r m : Byte) (t : State) : Prop :=
  t.flag .c = decide (m.toNat ≤ r.toNat) ∧ t.flag .z = decide (r = m) ∧
  t.flag .n = (BitVec.ofInt 8 ((r.toNat : Int) - m.toNat)).getLsbD 7

def Compares (i : Instr) (r : Reg) (s : State) : Prop :=
  Completes i s fun t =>
    SetsCompare (s.reg r) (operandOf i s) t ∧ t.pc = s.pc ∧ ReportsCost i s t ∧ Frame [] [.n, .z, .c] [] s t

/-- A memory byte stepped by `delta` mod 256 (R101, R102). -/
def StepsMemory (i : Instr) (delta : Int) (s : State) : Prop :=
  let v := BitVec.ofInt 8 ((s.read (eaOf i s)).toNat + delta)
  Completes i s fun t =>
    t.read (eaOf i s) = v ∧ SetsNZ v t ∧ t.pc = s.pc ∧ t.outcome = .ok i.cost.base ∧ Frame [] [.n, .z] [eaOf i s] s t

/-- A register that takes the byte `v` with its Z and N, in 2 cycles (R103 to R106, R131 to R135). -/
def SetsReg (i : Instr) (r : Reg) (v : Byte) (s : State) : Prop :=
  Completes i s fun t =>
    t.reg r = v ∧ SetsNZ v t ∧ t.pc = s.pc ∧ t.outcome = .ok 2 ∧ Frame [r] [.n, .z] [] s t

/-- A branch on `P.f = v` (R107): the target in 3 cycles, 4 on another page than the instruction after it; or on, in 2. -/
def Branches (i : Instr) (d : Byte) (f : Flag) (v : Bool) (s : State) : Prop :=
  Completes i s fun t =>
    Frame [] [] [] s t ∧
    if s.flag f = v then
      t.pc = BitVec.ofInt 16 (s.pc.toNat + d.toInt) ∧
      t.outcome = .ok (if s.pc.toNat / 256 = t.pc.toNat / 256 then 3 else 4)
    else t.pc = s.pc ∧ t.outcome = .ok 2

/-- One flag written, in 2 cycles (R124 to R130). -/
def WritesFlag (i : Instr) (f : Flag) (v : Bool) (s : State) : Prop :=
  Completes i s fun t => t.flag f = v ∧ t.pc = s.pc ∧ t.outcome = .ok 2 ∧ Frame [] [f] [] s t

/-- The address `n` bytes up the stack from `sp`, in page 1. -/
def stackAt (sp : Byte) (n : Nat) : Addr := BitVec.ofNat 16 (0x0100 + (sp.toNat + n) % 256)

/-- The address `n` bytes down the stack from `sp`, in page 1. -/
def stackBelow (sp : Byte) (n : Nat) : Addr := BitVec.ofNat 16 (0x0100 + (sp.toNat + 256 - n) % 256)

/-- Bytes pushed in order, and bytes pulled in order. -/
def pushMany (s : State) (vs : List Byte) : State := vs.foldl State.push s

def pullMany : Nat → State → List Byte × State
  | 0, s => ([], s)
  | n + 1, s => ((s.pull.1 :: (pullMany n s.pull.2).1), (pullMany n s.pull.2).2)

/-- The bytes a fetch at PC can take. -/
def bytesAtPc (s : State) : List Byte := [s.read s.pc, s.read (s.pc + 1), s.read (s.pc + 2)]

/-- The same instruction `n` times. -/
def execTimes (i : Instr) : Nat → State → Result
  | 0, s => .next s
  | n + 1, s =>
    match exec i s with
    | .next t => execTimes i n t
    | r => r

/-- The addresses an instruction writes (R38). -/
def storedBytes (i : Instr) (s : State) : List Addr :=
  match i with
  | .sta _ | .stx _ | .sty _ | .inc _ | .dec _ => [eaOf i s]
  | .asl f | .lsr f | .rol f | .ror f => if f = .acc then [] else [eaOf i s]
  | .pha | .php => [stackBelow s.sp 0]
  | .jsr _ => [stackBelow s.sp 0, stackBelow s.sp 1]
  | .lda _ | .ldx _ | .ldy _ | .adc _ | .sbc _ | .and _ | .ora _ | .eor _ | .cmp _ | .cpx _ | .cpy _ | .bit _ => []
  | .inx | .iny | .dex | .dey | .pla | .plp | .rts | .rti | .jmp _ | .nop | .brk | .undefined _ => []
  | .bcc _ | .bcs _ | .beq _ | .bne _ | .bmi _ | .bpl _ | .bvc _ | .bvs _ => []
  | .clc | .sec | .cld | .sed | .cli | .sei | .clv | .tax | .tay | .txa | .tya | .tsx | .txs => []

/-- The registers an instruction may write: the "written by" column of R16, and R19 for SP. -/
def writtenRegs (i : Instr) : List Reg :=
  match i with
  | .lda _ | .adc _ | .sbc _ | .and _ | .ora _ | .eor _ | .txa | .tya => [.a]
  | .asl f | .lsr f | .rol f | .ror f => if f = .acc then [.a] else []
  | .ldx _ | .inx | .dex | .tax | .tsx => [.x]
  | .ldy _ | .iny | .dey | .tay => [.y]
  | .pla => [.a, .sp]
  | .txs | .pha | .php | .plp | .jsr _ | .rts | .rti => [.sp]
  | .sta _ | .stx _ | .sty _ | .cmp _ | .cpx _ | .cpy _ | .inc _ | .dec _ | .bit _ | .jmp _ => []
  | .bcc _ | .bcs _ | .beq _ | .bne _ | .bmi _ | .bpl _ | .bvc _ | .bvs _ => []
  | .clc | .sec | .cld | .sed | .cli | .sei | .clv | .nop | .brk | .undefined _ => []

/-- The flags an instruction may write: the "written by" column of R26. -/
def writtenFlags (i : Instr) : List Flag :=
  match i with
  | .lda _ | .ldx _ | .ldy _ | .and _ | .ora _ | .eor _ | .inc _ | .dec _ | .inx | .iny | .dex | .dey => [.n, .z]
  | .pla | .tax | .tay | .txa | .tya | .tsx => [.n, .z]
  | .adc _ | .sbc _ => [.n, .v, .z, .c]
  | .asl _ | .lsr _ | .rol _ | .ror _ | .cmp _ | .cpx _ | .cpy _ => [.n, .z, .c]
  | .bit _ => [.n, .v, .z]
  | .clv => [.v]
  | .brk => [.b]
  | .cld | .sed => [.d]
  | .cli | .sei => [.i]
  | .clc | .sec => [.c]
  | .plp | .rti => [.n, .v, .b, .d, .i, .z, .c]
  | .sta _ | .stx _ | .sty _ | .txs | .pha | .php | .jmp _ | .jsr _ | .rts | .nop | .undefined _ => []
  | .bcc _ | .bcs _ | .beq _ | .bne _ | .bmi _ | .bpl _ | .bvc _ | .bvs _ => []

end Sys2Proof.Machine.Claims

open Sys2Proof Sys2Proof.Machine Sys2Proof.Machine.Claims

/-! ## Memory, the stack and the status register -/

/-- R35, R7: memory is a total function `u16 -> u8`: every such function is a canonical memory, and only one. -/
def Obligations.EveryByteFunctionIsOneMemory : Prop :=
  ∀ f : Addr → Byte, ∃ m : Memory, (m.wf ∧ ∀ a, m.read a = f a) ∧
    ∀ n : Memory, n.wf → (∀ a, n.read a = f a) → n = m

/-- R42. -/
def Obligations.PushStoresThenDecrements : Prop :=
  ∀ (s : State) (v : Byte),
    (s.push v).read (stackBelow s.sp 0) = v ∧ (s.push v).sp = BitVec.ofInt 8 (s.sp.toNat - 1) ∧
    hi (stackBelow s.sp 0) = 0x01#8 ∧ Frame [.sp] [] [stackBelow s.sp 0] s (s.push v) ∧
    (s.push v).pc = s.pc ∧ (s.push v).outcome = s.outcome

/-- R43. -/
def Obligations.PullIncrementsThenLoads : Prop :=
  ∀ s : State,
    s.pull.1 = s.read (stackAt s.sp 1) ∧ s.pull.2.sp = BitVec.ofNat 8 (s.sp.toNat + 1) ∧
    Frame [.sp] [] [] s s.pull.2 ∧ s.pull.2.pc = s.pc ∧ s.pull.2.outcome = s.outcome

/-- R44 (the spec derives it from R42 and R43): N pushes and N pulls restore SP and give the values back in reverse. -/
def Obligations.PushesThenPullsReturnReversed : Prop :=
  ∀ (s : State) (vs : List Byte), vs.length ≤ 256 →
    (pullMany vs.length (pushMany s vs)).1 = vs.reverse ∧
    Frame [] [] (List.map (stackBelow s.sp) (List.range vs.length)) s (pullMany vs.length (pushMany s vs)).2

/-- R27: `setNZ` writes exactly Z and N, and the order in which flags are written is not observable. -/
def Obligations.SetNZWritesExactlyZAndN : Prop :=
  (∀ (s : State) (v : Byte),
    SetsNZ v (s.setNZ v) ∧ Frame [] [.n, .z] [] s (s.setNZ v) ∧ (s.setNZ v).pc = s.pc ∧
    (s.setNZ v).outcome = s.outcome) ∧
  ∀ (s : State) (f g : Flag) (b c : Bool), f ≠ g → (s.setFlag f b).setFlag g c = (s.setFlag g c).setFlag f b

/-! ## Fetch, decode, encode -/

/-- R54: `Fetch8` reads at PC and advances it, wrapping; the whole instruction is fetched so, in address order. -/
def Obligations.FetchTakesBytesInAddressOrder : Prop :=
  ∀ s : State,
    s.fetch8 = (s.read s.pc, { s with pc := BitVec.ofNat 16 (s.pc.toNat + 1) }) ∧
    (∃ rest, decode (bytesAtPc s) = .ok ((fetchInstr s).1, rest)) ∧
    (fetchInstr s).2 = { s with pc := BitVec.ofNat 16 (s.pc.toNat + (fetchInstr s).1.length) }

/-- R62: a step is `exec` of the decoded instruction, with PC behind its bytes (R18). Every state has such an instruction. -/
def Obligations.StepRunsDecodedInstruction : Prop :=
  (∀ (s : State) (i : Instr) (rest : List Byte), decode (bytesAtPc s) = .ok (i, rest) →
    step s = exec i { s with pc := s.pc + BitVec.ofNat 16 i.length }) ∧
  ∀ s : State, ∃ i rest, decode (bytesAtPc s) = .ok (i, rest) ∧ i.wf = true

/-- Words written out from the spec's encodings, one a family (R57, R58; the bytes are the spec's supplement, D1). -/
def Obligations.SampleWordsDecode : Prop :=
  decode [0b10100101#8, 0x10#8] = .ok (.lda (.zp 0x10#8), []) ∧
  decode [0b01111101#8, 0x34#8, 0x12#8] = .ok (.adc (.abx 0x1234#16), []) ∧
  decode [0b00001010#8, 0x77#8] = .ok (.asl .acc, [0x77#8]) ∧
  decode [0b11011110#8, 0x00#8, 0x80#8] = .ok (.dec (.abx 0x8000#16), []) ∧
  decode [0b11010000#8, 0xFE#8] = .ok (.bne 0xFE#8, []) ∧
  decode [0b01101100#8, 0xFF#8, 0x10#8] = .ok (.jmp (.ind 0x10FF#16), []) ∧
  decode [0b00101000#8] = .ok (.plp, []) ∧
  decode [0b10111010#8] = .ok (.tsx, []) ∧
  decode [0b00101100#8, 0x01#8, 0x02#8] = .ok (.bit (.abs 0x0201#16), []) ∧
  decode [0b11111111#8] = .ok (.undefined 0xFF#8, [])

/-- Every well-formed instruction, at every operand, decodes from its own bytes, and occupies the length of its mode (R53). -/
def Obligations.DecodeOfEncode : Prop :=
  ∀ (i : Instr) (rest : List Byte), i.wf = true →
    decode (encode i ++ rest) = .ok (i, rest) ∧ (encode i).length = i.length

/-- What decodes is well-formed, and its bytes are the ones it was read from: no two byte strings mean one instruction. -/
def Obligations.EncodeOfDecode : Prop :=
  ∀ (bytes : List Byte) (i : Instr) (rest : List Byte), decode bytes = .ok (i, rest) →
    i.wf = true ∧ encode i ++ rest = bytes

/-- R59: the opcode byte alone tells the length, the one its mode has in R53; an undefined byte is one byte long. -/
def Obligations.LengthFromOpcodeAlone : Prop :=
  (∀ (op : Byte) (xs ys : List Byte) (i j : Instr) (r q : List Byte),
    decode (op :: xs) = .ok (i, r) → decode (op :: ys) = .ok (j, q) →
    i.length = j.length ∧ i.operand.mode = j.operand.mode ∧ (op :: xs).length = i.length + r.length) ∧
  ∀ op ∈ undefinedOpcodes, ∀ bytes, decode (op :: bytes) = .ok (.undefined op, bytes)

/-- R58, R57: a byte is undefined exactly when R58 lists it: 105 bytes, and 151 defined. -/
def Obligations.UndefinedBytesAreTheListedOnes : Prop :=
  (∀ op : Byte, (dispatch op = none ↔ op ∈ undefinedOpcodes)) ∧
  undefinedOpcodes.length = 105 ∧ undefinedOpcodes.Nodup

/-- R57, R162: the base cycles of all 256 bytes, row by row (0 marks an undefined byte, D4), and the 23 penalised ones. The
counts are the spec's supplement (D2). -/
def Obligations.CycleTableOfTheMap : Prop :=
  (∀ op : Byte, ((dispatch op).elim 0 Entry.base) = (List.getD
    (([7, 6, 0, 0, 0, 3, 5, 0, 3, 2, 2, 0, 0, 4, 6, 0] ++ [2, 5, 0, 0, 0, 4, 6, 0, 2, 4, 0, 0, 0, 4, 7, 0]) ++
     ([6, 6, 0, 0, 3, 3, 5, 0, 4, 2, 2, 0, 4, 4, 6, 0] ++ [2, 5, 0, 0, 0, 4, 6, 0, 2, 4, 0, 0, 0, 4, 7, 0]) ++
     ([6, 6, 0, 0, 0, 3, 5, 0, 3, 2, 2, 0, 3, 4, 6, 0] ++ [2, 5, 0, 0, 0, 4, 6, 0, 2, 4, 0, 0, 0, 4, 7, 0]) ++
     ([6, 6, 0, 0, 0, 3, 5, 0, 4, 2, 2, 0, 5, 4, 6, 0] ++ [2, 5, 0, 0, 0, 4, 6, 0, 2, 4, 0, 0, 0, 4, 7, 0]) ++
     ([0, 6, 0, 0, 3, 3, 3, 0, 2, 0, 2, 0, 4, 4, 4, 0] ++ [2, 6, 0, 0, 4, 4, 4, 0, 2, 5, 2, 0, 0, 5, 0, 0]) ++
     ([2, 6, 2, 0, 3, 3, 3, 0, 2, 2, 2, 0, 4, 4, 4, 0] ++ [2, 5, 0, 0, 4, 4, 4, 0, 2, 4, 2, 0, 4, 4, 4, 0]) ++
     ([2, 6, 0, 0, 3, 3, 5, 0, 2, 2, 2, 0, 4, 4, 6, 0] ++ [2, 5, 0, 0, 0, 4, 6, 0, 2, 4, 0, 0, 0, 4, 7, 0]) ++
     ([2, 6, 0, 0, 3, 3, 5, 0, 2, 2, 2, 0, 4, 4, 6, 0] ++ [2, 5, 0, 0, 0, 4, 6, 0, 2, 4, 0, 0, 0, 4, 7, 0]))
    op.toNat 0)) ∧
  ∀ op : Byte, ((dispatch op).elim false Entry.pagePenalty) = decide (op ∈
    [0xBD#8, 0xB9#8, 0xB1#8, 0xBE#8, 0xBC#8, 0x7D#8, 0x79#8, 0x71#8, 0xFD#8, 0xF9#8, 0xF1#8, 0x3D#8] ++
    [0x39#8, 0x31#8, 0x1D#8, 0x19#8, 0x11#8, 0x5D#8, 0x59#8, 0x51#8, 0xDD#8, 0xD9#8, 0xD1#8])

/-- A table word stored where the next step fetches runs as that instruction (log 9). -/
def Obligations.StoredTableWordRuns : Prop :=
  ∀ (s : State) (nbits w : Nat) (i : Instr), decodeTableWord nbits w = some i →
    step (s.withFetchWord nbits w) =
      exec i { s.withFetchWord nbits w with pc := s.pc + BitVec.ofNat 16 i.length }

/-! ## Addressing modes -/

/-- R68, R69, R70: the zero-page modes stay in page 0, indexed by X or Y mod 256, and never cross. -/
def Obligations.ZeroPageModesWrapInPageZero : Prop :=
  ∀ (s : State) (b : Byte),
    (resolve (.zp b) s).ea.toNat = b.toNat ∧
    (resolve (.zpx b) s).ea.toNat = (b.toNat + s.x.toNat) % 256 ∧
    (resolve (.zpy b) s).ea.toNat = (b.toNat + s.y.toNat) % 256 ∧
    (resolve (.zp b) s).crossed = false ∧ (resolve (.zpx b) s).crossed = false ∧ (resolve (.zpy b) s).crossed = false

/-- R72, R73, R74: the absolute modes, indexed mod 65536, crossed exactly when the high byte changes. -/
def Obligations.AbsoluteModesIndexMod65536 : Prop :=
  ∀ (s : State) (w : Addr),
    (resolve (.abs w) s).ea = w ∧ (resolve (.abs w) s).crossed = false ∧
    (resolve (.abx w) s).ea.toNat = (w.toNat + s.x.toNat) % 65536 ∧
    (resolve (.aby w) s).ea.toNat = (w.toNat + s.y.toNat) % 65536 ∧
    (resolve (.abx w) s).crossed = decide (w.toNat / 256 ≠ (w.toNat + s.x.toNat) % 65536 / 256) ∧
    (resolve (.aby w) s).crossed = decide (w.toNat / 256 ≠ (w.toNat + s.y.toNat) % 65536 / 256)

/-- R75, R76, R77: the pointer modes: JMP's pointer never carries into its high byte (D5), the zero-page pointers wrap in page
0 (for (zp),Y the spec's choice D6). -/
def Obligations.PointerModesWrap : Prop :=
  ∀ (s : State),
    (∀ w : Addr,
      (resolve (.ind w) s).ea.toNat =
        (s.read w).toNat + 256 * (s.read ((w &&& 0xFF00#16) + BitVec.ofNat 16 ((w.toNat + 1) % 256))).toNat ∧
      (resolve (.ind w) s).crossed = false) ∧
    ∀ b : Byte,
      (let p := (b.toNat + s.x.toNat) % 256
       (resolve (.izx b) s).ea.toNat =
         (s.read (BitVec.ofNat 16 p)).toNat + 256 * (s.read (BitVec.ofNat 16 ((p + 1) % 256))).toNat ∧
       (resolve (.izx b) s).crossed = false) ∧
      (let base := (s.read (BitVec.ofNat 16 b.toNat)).toNat +
         256 * (s.read (BitVec.ofNat 16 ((b.toNat + 1) % 256))).toNat
       (resolve (.izy b) s).ea.toNat = (base + s.y.toNat) % 65536 ∧
       (resolve (.izy b) s).crossed = decide (base / 256 ≠ (base + s.y.toNat) % 65536 / 256))

/-- R78, R79 (D14): the operand read and written in accumulator, immediate and memory modes. -/
def Obligations.OperandAccessByMode : Prop :=
  ∀ (s : State) (v : Byte),
    s.readOperand (resolve .acc s) = s.a ∧ s.writeOperand (resolve .acc s) v = { s with a := v } ∧
    (∀ w, s.readOperand (resolve (.imm w) s) = w) ∧
    ∀ o : Operand, o.mode ∈ [Mode.zp, .zpx, .zpy, .abs, .abx, .aby, .izx, .izy] →
      s.readOperand (resolve o s) = s.read (resolve o s).ea ∧
      s.writeOperand (resolve o s) v = s.write (resolve o s).ea v

/-- R80, R162: only abs,X, abs,Y and (zp),Y can cross, and a penalised row of the table is in one of these modes. -/
def Obligations.OnlyIndexedModesCross : Prop :=
  (∀ (o : Operand) (s : State), (resolve o s).crossed = true → o.mode ∈ [Mode.abx, .aby, .izy]) ∧
  ∀ i : Instr, i.wf = true → i.cost.pagePenalty = true → i.operand.mode ∈ [Mode.abx, .aby, .izy]

/-! ## Loads, stores, arithmetic, logic -/

/-- LDA, LDX, LDY in every mode. -/
def Obligations.LoadsCopyTheOperand : Prop :=
  ∀ s : State, (∀ f, Loads (.lda f) .a s) ∧ (∀ f, Loads (.ldx f) .x s) ∧ ∀ f, Loads (.ldy f) .y s

/-- STA, STX, STY in every mode: the byte at EA takes the register, no other byte, no flag, no register. -/
def Obligations.StoresWriteOneByte : Prop :=
  ∀ s : State, (∀ f, Stores (.sta f) .a s) ∧ (∀ f, Stores (.stx f) .x s) ∧ ∀ f, Stores (.sty f) .y s

/-- ADC in every mode: the binary sum, C the carry out of bit 7 (C1), V the signed overflow, by both tests of R88. -/
def Obligations.AdcAddsWithCarry : Prop :=
  ∀ (s : State) (f : AluForm),
    let m := operandOf (.adc f) s
    let sum := s.a.toNat + m.toNat + bitOf (s.flag .c)
    let r := BitVec.ofNat 8 (sum % 256)
    ComputesA (.adc f) [.n, .v, .z, .c] s r fun t =>
      t.flag .c = decide (sum > 255) ∧
      t.flag .v = decide (s.a.toInt + m.toInt + bitOf (s.flag .c) < -128 ∨
        127 < s.a.toInt + m.toInt + bitOf (s.flag .c)) ∧
      t.flag .v = decide (((s.a ^^^ r) &&& (m ^^^ r)) &&& 0x80#8 ≠ 0x00#8)

/-- SBC in every mode: `(A − M − (1 − C)) mod 256`, C set exactly when there is no borrow (C2), V the signed overflow. -/
def Obligations.SbcSubtractsWithBorrow : Prop :=
  ∀ (s : State) (f : AluForm),
    let m := operandOf (.sbc f) s
    let borrow := 1 - bitOf (s.flag .c)
    let r := BitVec.ofInt 8 ((s.a.toNat : Int) - m.toNat - borrow)
    ComputesA (.sbc f) [.n, .v, .z, .c] s r fun t =>
      t.flag .c = decide (s.a.toNat ≥ m.toNat + borrow) ∧
      t.flag .v = decide (s.a.toInt - m.toInt - borrow < -128 ∨ 127 < s.a.toInt - m.toInt - borrow) ∧
      t.flag .v = decide (((s.a ^^^ m) &&& (s.a ^^^ r)) &&& 0x80#8 ≠ 0x00#8)

/-- AND, ORA, EOR in every mode: bit by bit, Z and N, and C and V kept. -/
def Obligations.LogicCombinesBitwise : Prop :=
  ∀ (s : State) (f : AluForm),
    (∃ r, (∀ k, r.getLsbD k = (s.a.getLsbD k && (operandOf (.and f) s).getLsbD k)) ∧
      ComputesA (.and f) [.n, .z] s r fun _ => True) ∧
    (∃ r, (∀ k, r.getLsbD k = (s.a.getLsbD k || (operandOf (.ora f) s).getLsbD k)) ∧
      ComputesA (.ora f) [.n, .z] s r fun _ => True) ∧
    ∃ r, (∀ k, r.getLsbD k = (s.a.getLsbD k ^^ (operandOf (.eor f) s).getLsbD k)) ∧
      ComputesA (.eor f) [.n, .z] s r fun _ => True

/-- R24, D7: ADC and SBC do the same whatever D holds: writing D before or after the instruction is all one. -/
def Obligations.DecimalFlagChangesNoArithmetic : Prop :=
  ∀ (s : State) (f : AluForm) (b : Bool),
    (∃ t, exec (.adc f) s = .next t ∧ exec (.adc f) (s.setFlag .d b) = .next (t.setFlag .d b)) ∧
    ∃ t, exec (.sbc f) s = .next t ∧ exec (.sbc f) (s.setFlag .d b) = .next (t.setFlag .d b)

/-! ## Shifts, compares, increments -/

/-- ASL, LSR, ROL, ROR on A and on memory; a rotate takes the carry as it was before. -/
def Obligations.ShiftsAndRotates : Prop :=
  ∀ (s : State) (f : ShiftForm),
    let c := bitOf (s.flag .c)
    (let v := operandOf (.asl f) s
     Shifts (.asl f) f s (2 * v.toNat % 256) (v.getLsbD 7)) ∧
    (let v := operandOf (.lsr f) s
     Shifts (.lsr f) f s (v.toNat / 2) (v.getLsbD 0)) ∧
    (let v := operandOf (.rol f) s
     Shifts (.rol f) f s (2 * v.toNat % 256 + c) (v.getLsbD 7)) ∧
    let v := operandOf (.ror f) s
    Shifts (.ror f) f s (v.toNat / 2 + 128 * c) (v.getLsbD 0)

/-- "Nine ROLs in a row restore v and C" (R95, corner cases). -/
def Obligations.NineRolsRestoreAccumulatorAndCarry : Prop :=
  ∀ s : State, ∃ t, execTimes (.rol .acc) 9 s = .next t ∧ t.a = s.a ∧ t.flag .c = s.flag .c

/-- R97: `Compare(R, M)` sets C, Z and N so, and writes no register, no memory and no V. -/
def Obligations.CompareCoreSetsCZN : Prop :=
  ∀ (s : State) (r m : Byte),
    SetsCompare r m (s.compare r m) ∧ Frame [] [.n, .z, .c] [] s (s.compare r m) ∧
    (s.compare r m).pc = s.pc ∧ (s.compare r m).outcome = s.outcome

/-- CMP, CPX, CPY in every mode. -/
def Obligations.CompareInstructions : Prop :=
  ∀ s : State, (∀ f, Compares (.cmp f) .a s) ∧ (∀ f, Compares (.cpx f) .x s) ∧ ∀ f, Compares (.cpy f) .y s

/-- INC and DEC in every mode: C and V kept. -/
def Obligations.IncDecStepMemory : Prop :=
  ∀ (s : State) (f : IncForm), StepsMemory (.inc f) 1 s ∧ StepsMemory (.dec f) (-1) s

/-- INX, INY, DEX, DEY. -/
def Obligations.IncDecStepRegisters : Prop :=
  ∀ s : State,
    SetsReg .inx .x (BitVec.ofInt 8 (s.x.toNat + 1)) s ∧ SetsReg .iny .y (BitVec.ofInt 8 (s.y.toNat + 1)) s ∧
    SetsReg .dex .x (BitVec.ofInt 8 (s.x.toNat - 1)) s ∧ SetsReg .dey .y (BitVec.ofInt 8 (s.y.toNat - 1)) s

/-! ## Control flow -/

/-- R107, and the condition of each branch (R108 to R115). -/
def Obligations.BranchesTakenAndNotTaken : Prop :=
  ∀ (s : State) (d : Byte),
    Branches (.bcc d) d .c false s ∧ Branches (.bcs d) d .c true s ∧
    Branches (.beq d) d .z true s ∧ Branches (.bne d) d .z false s ∧
    Branches (.bmi d) d .n true s ∧ Branches (.bpl d) d .n false s ∧
    Branches (.bvc d) d .v false s ∧ Branches (.bvs d) d .v true s

/-- R28, R71: in a branch's context `imm` is the displacement and `ea` the target; a branch leaves PC there or where it was.
That the handler puts `ea` into the context is the model's reading of R28 with R71 (log 8). -/
def Obligations.RelativeContextHoldsTarget : Prop :=
  ∀ (s : State) (d : Byte),
    (branchCtx d s).mode = .rel ∧ (branchCtx d s).imm = d ∧ (branchCtx d s).crossed = false ∧
    (branchCtx d s).ea = BitVec.ofInt 16 (s.pc.toNat + d.toInt) ∧
    ∀ i ∈ [Instr.bcc d, .bcs d, .beq d, .bne d, .bmi d, .bpl d, .bvc d, .bvs d],
      Completes i s fun t => t.pc = (branchCtx d s).ea ∨ t.pc = s.pc

/-- JMP, direct in 3 cycles and through the quirky pointer in 5 (R116; D5). -/
def Obligations.JmpSetsPc : Prop :=
  ∀ (s : State) (w : Addr),
    Completes (.jmp (.abs w)) s (fun t => t.pc = w ∧ t.outcome = .ok 3 ∧ Frame [] [] [] s t) ∧
    Completes (.jmp (.ind w)) s (fun t =>
      t.pc.toNat =
        (s.read w).toNat + 256 * (s.read ((w &&& 0xFF00#16) + BitVec.ofNat 16 ((w.toNat + 1) % 256))).toNat ∧
      t.outcome = .ok 5 ∧ Frame [] [] [] s t)

/-- JSR: the address of its last byte on the stack, high byte at the higher address; SP two down; 6 cycles. -/
def Obligations.JsrPushesReturnAddress : Prop :=
  ∀ (s : State) (target : Addr),
    Completes (.jsr target) s fun t =>
      t.pc = target ∧ t.sp = BitVec.ofInt 8 (s.sp.toNat - 2) ∧ t.outcome = .ok 6 ∧
      t.read (stackBelow s.sp 0) = hi (s.pc - 1) ∧ t.read (stackBelow s.sp 1) = lo (s.pc - 1) ∧
      Frame [.sp] [] [stackBelow s.sp 0, stackBelow s.sp 1] s t

/-- RTS: low byte, then high byte, plus one; SP two up; 6 cycles. -/
def Obligations.RtsPullsReturnAddress : Prop :=
  ∀ s : State,
    Completes .rts s fun t =>
      t.pc = BitVec.ofNat 16 ((s.read (stackAt s.sp 1)).toNat + 256 * (s.read (stackAt s.sp 2)).toNat + 1) ∧
      t.sp = BitVec.ofNat 8 (s.sp.toNat + 2) ∧ t.outcome = .ok 6 ∧ Frame [.sp] [] [] s t

/-- RTI: P, then PC low, then PC high, no plus one (D12); every flag replaced, bit 5 forced to 1 (D8); 6 cycles. -/
def Obligations.RtiRestoresStatusThenPc : Prop :=
  ∀ s : State,
    Completes .rti s fun t =>
      t.p = (s.read (stackAt s.sp 1) ||| 0x20#8) ∧
      t.pc.toNat = (s.read (stackAt s.sp 2)).toNat + 256 * (s.read (stackAt s.sp 3)).toNat ∧
      t.sp = BitVec.ofNat 8 (s.sp.toNat + 3) ∧ t.outcome = .ok 6 ∧
      KeepsRegs [.sp] s t ∧ KeepsMemory [] s t ∧ t.illegalSeen = s.illegalSeen

/-- A call and the return that answers it (R117, R118): RTS from the state JSR leaves comes back to the instruction after the
JSR, whatever PC the subroutine reached meanwhile, with SP, A, X, Y and P as they were. -/
def Obligations.JsrThenRtsComesBack : Prop :=
  ∀ (s : State) (target elsewhere : Addr),
    ∃ t u, exec (.jsr target) s = .next t ∧ t.pc = target ∧ exec .rts { t with pc := elsewhere } = .next u ∧
      u.pc = s.pc ∧ Frame [] [] [stackBelow s.sp 0, stackBelow s.sp 1] s u

/-! ## Stack, flags, transfers, BIT, NOP, BRK, undefined bytes -/

/-- PHA pushes A; PHP pushes P with bits 5 and 4 set (D9) and keeps P. 3 cycles. -/
def Obligations.PhaPhpPushOneByte : Prop :=
  ∀ s : State,
    Completes .pha s (fun t =>
      t.read (stackBelow s.sp 0) = s.a ∧ t.sp = BitVec.ofInt 8 (s.sp.toNat - 1) ∧ t.pc = s.pc ∧ t.outcome = .ok 3 ∧
      Frame [.sp] [] [stackBelow s.sp 0] s t) ∧
    Completes .php s (fun t =>
      t.read (stackBelow s.sp 0) = s.p ||| 0x30#8 ∧ t.sp = BitVec.ofInt 8 (s.sp.toNat - 1) ∧ t.pc = s.pc ∧
      t.outcome = .ok 3 ∧ Frame [.sp] [] [stackBelow s.sp 0] s t)

/-- PLA loads A and sets Z and N; PLP replaces every flag, B included (D10), and forces bit 5 to 1 (C7). 4 cycles. -/
def Obligations.PlaPlpPullOneByte : Prop :=
  ∀ s : State,
    Completes .pla s (fun t =>
      t.a = s.read (stackAt s.sp 1) ∧ SetsNZ t.a t ∧ t.sp = BitVec.ofNat 8 (s.sp.toNat + 1) ∧ t.pc = s.pc ∧
      t.outcome = .ok 4 ∧ Frame [.a, .sp] [.n, .z] [] s t) ∧
    Completes .plp s (fun t =>
      (∀ f, t.flag f = (s.read (stackAt s.sp 1)).getLsbD f.bit) ∧ t.bit5 = true ∧
      t.sp = BitVec.ofNat 8 (s.sp.toNat + 1) ∧ t.pc = s.pc ∧ t.outcome = .ok 4 ∧
      KeepsRegs [.sp] s t ∧ KeepsMemory [] s t ∧ t.illegalSeen = s.illegalSeen)

/-- "PHP then PLP restores every flag except that B becomes 1" (R121, corner cases; D9). -/
def Obligations.PhpThenPlpRestoresFlagsButB : Prop :=
  ∀ s : State,
    ∃ t u, exec .php s = .next t ∧ exec .plp t = .next u ∧ u.sp = s.sp ∧ u.flag .b = true ∧ u.bit5 = true ∧
      ∀ f, f ≠ .b → u.flag f = s.flag f

/-- CLC, SEC, CLD, SED, CLI, SEI, CLV: one flag each, nothing else. -/
def Obligations.FlagInstructionsWriteOneFlag : Prop :=
  ∀ s : State,
    WritesFlag .clc .c false s ∧ WritesFlag .sec .c true s ∧ WritesFlag .cld .d false s ∧ WritesFlag .sed .d true s ∧
    WritesFlag .cli .i false s ∧ WritesFlag .sei .i true s ∧ WritesFlag .clv .v false s

/-- TAX, TAY, TXA, TYA, TSX copy with Z and N; TXS copies and writes no flag. -/
def Obligations.TransfersCopyRegisters : Prop :=
  ∀ s : State,
    SetsReg .tax .x s.a s ∧ SetsReg .tay .y s.a s ∧ SetsReg .txa .a s.x s ∧ SetsReg .tya .a s.y s ∧
    SetsReg .tsx .x s.sp s ∧
    Completes .txs s (fun t => t.sp = s.x ∧ t.pc = s.pc ∧ t.outcome = .ok 2 ∧ Frame [.sp] [] [] s t)

/-- BIT: N and V from the operand, Z from A AND the operand, C and A kept; 3 or 4 cycles. -/
def Obligations.BitTestsOperand : Prop :=
  ∀ (s : State) (f : BitForm),
    let m := operandOf (.bit f) s
    Completes (.bit f) s fun t =>
      t.flag .n = m.getLsbD 7 ∧ t.flag .v = m.getLsbD 6 ∧
      t.flag .z = decide ((s.a &&& m).toNat = 0) ∧ t.pc = s.pc ∧
      t.outcome = .ok (if f.operand.mode = .zp then 3 else 4) ∧ Frame [] [.n, .v, .z] [] s t

/-- NOP changes nothing in 2 cycles; BRK sets B in 7, leaves PC behind its one byte, pushes nothing (R139; D11). -/
def Obligations.NopAndBrkEffects : Prop :=
  ∀ s : State,
    Completes .nop s (fun t => t.pc = s.pc ∧ t.outcome = .ok 2 ∧ Frame [] [] [] s t) ∧
    Completes .brk s (fun t => t.flag .b = true ∧ t.pc = s.pc ∧ t.outcome = .ok 7 ∧ Frame [] [.b] [] s t)

/-- R141 (D3): an undefined byte at `a` is consumed alone; the step reports `Illegal(op, a)` and sets the mark, and every
other register, P and memory are as they were. That the outcome is a NEXT state is the model's reading (log 6). -/
def Obligations.UndefinedByteOutcome : Prop :=
  (∀ (s : State) (op : Byte), exec (.undefined op) s =
    .next { s with illegalSeen := true, outcome := .illegal op (s.pc - 1) }) ∧
  ∀ s : State, s.read s.pc ∈ undefinedOpcodes →
    step s = .next { s with pc := s.pc + 1, illegalSeen := true, outcome := .illegal (s.read s.pc) s.pc }

/-- U2, R141: a checked step faults exactly on an undefined byte, with that byte and its address, and is `step` elsewhere. -/
def Obligations.CheckedStepFaultsOnUndefinedBytes : Prop :=
  ∀ s : State,
    (s.read s.pc ∈ undefinedOpcodes → checkedStep s = .fault (.illegalOpcode (s.read s.pc) s.pc)) ∧
    (s.read s.pc ∉ undefinedOpcodes → checkedStep s = step s)

/-! ## The whole machine -/

/-- R22, R35: bit 5 of P stays 1 and memory stays canonical, step by step from every state where they are so. -/
def Obligations.StepKeepsInv : Prop :=
  ∀ s t : State, s.Inv → step s = .next t → t.Inv

/-- R22, R32, R154: at reset bit 5 of P is 1, no undefined opcode was seen, and memory is canonical. (The other values at
reset are the model's choice, log 1 to 5, and are not stated.) -/
def Obligations.ResetMeetsInv : Prop := State.reset.Inv ∧ State.reset.illegalSeen = false

/-- R64: every byte in every state gives one outcome and one next state: `Ok(n)` for a defined byte, `Illegal(op, a)` for an
undefined one. -/
def Obligations.StepIsTotal : Prop :=
  ∀ s : State, ∃ t, step s = .next t ∧
    ((s.read s.pc ∉ undefinedOpcodes ∧ ∃ n, t.outcome = .ok n) ∨
     (s.read s.pc ∈ undefinedOpcodes ∧ t.outcome = .illegal (s.read s.pc) s.pc))

/-- R163, R161 (derived by the spec from the map, D2): a defined instruction reports 2 to 7 cycles, a branch 2 to 4, and its
base cycles plus at most 1 where it is no branch and at most 2 where it is one; an undefined byte reports 0 (D4). -/
def Obligations.ReportedCyclesAreBounded : Prop :=
  (∀ (i : Instr) (s : State), (∀ op, i ≠ .undefined op) →
    ∃ t n, exec i s = .next t ∧ t.outcome = .ok n ∧ t.reportedCycles = some n ∧ 2 ≤ n ∧ n ≤ 7 ∧ i.cost.base ≤ n ∧
      (n ≤ i.cost.base + if i.operand.mode = .rel then 2 else 1) ∧ (i.operand.mode = .rel → n ≤ 4)) ∧
  ∀ (op : Byte) (s : State), Completes (.undefined op) s fun t => t.reportedCycles = some 0

/-- R26: no instruction changes a flag outside its row of the table, and bit 5 changes only to 1. -/
def Obligations.FlagsHaveOnlyTheListedWriters : Prop :=
  ∀ (i : Instr) (s t : State), exec i s = .next t →
    (∀ f, f ∉ writtenFlags i → t.flag f = s.flag f) ∧ (t.bit5 = s.bit5 ∨ t.bit5 = true ∧ (i = .plp ∨ i = .rti))

/-- R16, R19: no instruction changes A, X, Y or SP outside the table, and only control transfers change PC (R18). -/
def Obligations.RegistersHaveOnlyTheListedWriters : Prop :=
  ∀ (i : Instr) (s t : State), exec i s = .next t →
    KeepsRegs (writtenRegs i) s t ∧
    (t.pc ≠ s.pc → i.operand.mode = .rel ∨ i ∈ [Instr.rts, .rti] ∨ (∃ f, i = .jmp f) ∨ ∃ w, i = .jsr w)

/-- R38: an instruction changes memory only at the addresses R38 gives it. -/
def Obligations.MemoryHasOnlyTheListedWriters : Prop :=
  ∀ (i : Instr) (s t : State), exec i s = .next t → KeepsMemory (storedBytes i s) s t

/-- R30: the mark is set by an undefined byte, cleared by nothing, and read by no instruction. -/
def Obligations.IllegalSeenIsStickyAndUnread : Prop :=
  ∀ (i : Instr) (s : State) (b : Bool), ∃ t, exec i s = .next t ∧
    t.illegalSeen = (s.illegalSeen || decide (∃ op, i = .undefined op)) ∧
    exec i { s with illegalSeen := b } = .next { t with illegalSeen := b || decide (∃ op, i = .undefined op) }

/-- R149, R161: no instruction can read what an earlier step reported. -/
def Obligations.ReportedCyclesAreUnread : Prop :=
  ∀ (i : Instr) (s : State) (o : StepOutcome), exec i { s with outcome := o } = exec i s

/-- R23: no instruction reads B: with B written beforehand an instruction does the same, but for B itself. -/
def Obligations.BreakFlagIsNeverRead : Prop :=
  ∀ (i : Instr) (s : State) (b : Bool), ∃ t, exec i s = .next t ∧
    (exec i (s.setFlag .b b) = .next (t.setFlag .b b) ∨ exec i (s.setFlag .b b) = .next t)

/-! ## The host interface -/

/-- R154, R22: a launch state holds the launch parameters, or is refused where bit 5 of P is 0. -/
def Obligations.LaunchHoldsParametersOrIsRefused : Prop :=
  ∀ l : LaunchParams,
    (l.initP.getLsbD 5 = true → ∃ s, launch l = .next s ∧ s.Inv ∧ s.illegalSeen = false ∧
      s.a = l.initA ∧ s.x = l.initX ∧ s.y = l.initY ∧ s.sp = l.initSP ∧ s.p = l.initP ∧ s.pc = l.initPC ∧
      ∀ a v, (a, v) ∈ l.initMem → (∀ w, (a, w) ∈ l.initMem → w = v) → s.read a = v) ∧
    (l.initP.getLsbD 5 = false → launch l = .refused .launchBit5Clear)

/-- R155, R157: during a run the host has no move but `step`, and before a run no step without a memory. -/
def Obligations.HostMovesDuringRunAreRefused : Prop :=
  (∀ (s : State) (m : HostMove), m ≠ .step →
    ((HostSession.running s).act m = .refused .rebindDuringRun ∨
     (HostSession.running s).act m = .refused .hostWriteDuringRun)) ∧
  (∀ s : State, ∃ t, step s = .next t ∧ (HostSession.running s).act .step = .next (.running t) ∧
    (HostSession.setup true s).act .step = .next (.running t)) ∧
  ∀ s : State, (HostSession.setup false s).act .step = .refused .notConnected
end

