-- ==== Sys2Proof/Laws/State.lean ====
section
/-! SUPPORT. What each update of State does to each of its fields: one lemma a field, so that no proof unfolds an update. -/

namespace Sys2Proof.Machine

variable (s : State)

/-! `setReg .a` -/

@[simp] theorem State.setReg_a_a (v : Byte) : (s.setReg .a v).a = v := rfl
@[simp] theorem State.setReg_a_x (v : Byte) : (s.setReg .a v).x = s.x := rfl
@[simp] theorem State.setReg_a_y (v : Byte) : (s.setReg .a v).y = s.y := rfl
@[simp] theorem State.setReg_a_sp (v : Byte) : (s.setReg .a v).sp = s.sp := rfl

/-! `setReg .x` -/

@[simp] theorem State.setReg_x_a (v : Byte) : (s.setReg .x v).a = s.a := rfl
@[simp] theorem State.setReg_x_x (v : Byte) : (s.setReg .x v).x = v := rfl
@[simp] theorem State.setReg_x_y (v : Byte) : (s.setReg .x v).y = s.y := rfl
@[simp] theorem State.setReg_x_sp (v : Byte) : (s.setReg .x v).sp = s.sp := rfl

/-! `setReg .y` -/

@[simp] theorem State.setReg_y_a (v : Byte) : (s.setReg .y v).a = s.a := rfl
@[simp] theorem State.setReg_y_x (v : Byte) : (s.setReg .y v).x = s.x := rfl
@[simp] theorem State.setReg_y_y (v : Byte) : (s.setReg .y v).y = v := rfl
@[simp] theorem State.setReg_y_sp (v : Byte) : (s.setReg .y v).sp = s.sp := rfl

/-! `setReg .sp` -/

@[simp] theorem State.setReg_sp_a (v : Byte) : (s.setReg .sp v).a = s.a := rfl
@[simp] theorem State.setReg_sp_x (v : Byte) : (s.setReg .sp v).x = s.x := rfl
@[simp] theorem State.setReg_sp_y (v : Byte) : (s.setReg .sp v).y = s.y := rfl
@[simp] theorem State.setReg_sp_sp (v : Byte) : (s.setReg .sp v).sp = v := rfl

/-! `setReg r`: what it does to the register file and leaves of the rest -/

@[simp] theorem State.setReg_pc (r : Reg) (v : Byte) : (s.setReg r v).pc = s.pc := by cases r <;> rfl
@[simp] theorem State.setReg_p (r : Reg) (v : Byte) : (s.setReg r v).p = s.p := by cases r <;> rfl
@[simp] theorem State.setReg_mem (r : Reg) (v : Byte) : (s.setReg r v).mem = s.mem := by cases r <;> rfl
@[simp] theorem State.setReg_illegalSeen (r : Reg) (v : Byte) : (s.setReg r v).illegalSeen = s.illegalSeen := by cases r <;> rfl
@[simp] theorem State.setReg_outcome (r : Reg) (v : Byte) : (s.setReg r v).outcome = s.outcome := by cases r <;> rfl

theorem State.reg_setReg (r q : Reg) (v : Byte) : (s.setReg r v).reg q = if q = r then v else s.reg q := by
  cases r <;> cases q <;> rfl

@[simp] theorem State.reg_setReg_same (r : Reg) (v : Byte) : (s.setReg r v).reg r = v := by cases r <;> rfl

/-! `setFlag` writes P only -/

@[simp] theorem State.setFlag_a (f : Flag) (v : Bool) : (s.setFlag f v).a = s.a := rfl
@[simp] theorem State.setFlag_x (f : Flag) (v : Bool) : (s.setFlag f v).x = s.x := rfl
@[simp] theorem State.setFlag_y (f : Flag) (v : Bool) : (s.setFlag f v).y = s.y := rfl
@[simp] theorem State.setFlag_sp (f : Flag) (v : Bool) : (s.setFlag f v).sp = s.sp := rfl
@[simp] theorem State.setFlag_pc (f : Flag) (v : Bool) : (s.setFlag f v).pc = s.pc := rfl
@[simp] theorem State.setFlag_mem (f : Flag) (v : Bool) : (s.setFlag f v).mem = s.mem := rfl
@[simp] theorem State.setFlag_illegalSeen (f : Flag) (v : Bool) : (s.setFlag f v).illegalSeen = s.illegalSeen := rfl
@[simp] theorem State.setFlag_outcome (f : Flag) (v : Bool) : (s.setFlag f v).outcome = s.outcome := rfl

/-! `writeP` -/

@[simp] theorem State.writeP_a (v : Byte) : (s.writeP v).a = s.a := rfl
@[simp] theorem State.writeP_x (v : Byte) : (s.writeP v).x = s.x := rfl
@[simp] theorem State.writeP_y (v : Byte) : (s.writeP v).y = s.y := rfl
@[simp] theorem State.writeP_sp (v : Byte) : (s.writeP v).sp = s.sp := rfl
@[simp] theorem State.writeP_pc (v : Byte) : (s.writeP v).pc = s.pc := rfl
@[simp] theorem State.writeP_p (v : Byte) : (s.writeP v).p = v ||| 0x20#8 := rfl
@[simp] theorem State.writeP_mem (v : Byte) : (s.writeP v).mem = s.mem := rfl
@[simp] theorem State.writeP_illegalSeen (v : Byte) : (s.writeP v).illegalSeen = s.illegalSeen := rfl
@[simp] theorem State.writeP_outcome (v : Byte) : (s.writeP v).outcome = s.outcome := rfl

/-! `setNZ` writes P only -/

@[simp] theorem State.setNZ_a (v : Byte) : (s.setNZ v).a = s.a := rfl
@[simp] theorem State.setNZ_x (v : Byte) : (s.setNZ v).x = s.x := rfl
@[simp] theorem State.setNZ_y (v : Byte) : (s.setNZ v).y = s.y := rfl
@[simp] theorem State.setNZ_sp (v : Byte) : (s.setNZ v).sp = s.sp := rfl
@[simp] theorem State.setNZ_pc (v : Byte) : (s.setNZ v).pc = s.pc := rfl
@[simp] theorem State.setNZ_mem (v : Byte) : (s.setNZ v).mem = s.mem := rfl
@[simp] theorem State.setNZ_illegalSeen (v : Byte) : (s.setNZ v).illegalSeen = s.illegalSeen := rfl
@[simp] theorem State.setNZ_outcome (v : Byte) : (s.setNZ v).outcome = s.outcome := rfl

/-! `compare` writes P only -/

@[simp] theorem State.compare_a (r m : Byte) : (s.compare r m).a = s.a := rfl
@[simp] theorem State.compare_x (r m : Byte) : (s.compare r m).x = s.x := rfl
@[simp] theorem State.compare_y (r m : Byte) : (s.compare r m).y = s.y := rfl
@[simp] theorem State.compare_sp (r m : Byte) : (s.compare r m).sp = s.sp := rfl
@[simp] theorem State.compare_pc (r m : Byte) : (s.compare r m).pc = s.pc := rfl
@[simp] theorem State.compare_mem (r m : Byte) : (s.compare r m).mem = s.mem := rfl
@[simp] theorem State.compare_illegalSeen (r m : Byte) : (s.compare r m).illegalSeen = s.illegalSeen := rfl
@[simp] theorem State.compare_outcome (r m : Byte) : (s.compare r m).outcome = s.outcome := rfl

/-! `write` -/

@[simp] theorem State.write_a (k : Addr) (v : Byte) : (s.write k v).a = s.a := rfl
@[simp] theorem State.write_x (k : Addr) (v : Byte) : (s.write k v).x = s.x := rfl
@[simp] theorem State.write_y (k : Addr) (v : Byte) : (s.write k v).y = s.y := rfl
@[simp] theorem State.write_sp (k : Addr) (v : Byte) : (s.write k v).sp = s.sp := rfl
@[simp] theorem State.write_pc (k : Addr) (v : Byte) : (s.write k v).pc = s.pc := rfl
@[simp] theorem State.write_p (k : Addr) (v : Byte) : (s.write k v).p = s.p := rfl
@[simp] theorem State.write_mem (k : Addr) (v : Byte) : (s.write k v).mem = s.mem.write k v := rfl
@[simp] theorem State.write_illegalSeen (k : Addr) (v : Byte) : (s.write k v).illegalSeen = s.illegalSeen := rfl
@[simp] theorem State.write_outcome (k : Addr) (v : Byte) : (s.write k v).outcome = s.outcome := rfl

/-! `jump` -/

@[simp] theorem State.jump_a (t : Addr) : (s.jump t).a = s.a := rfl
@[simp] theorem State.jump_x (t : Addr) : (s.jump t).x = s.x := rfl
@[simp] theorem State.jump_y (t : Addr) : (s.jump t).y = s.y := rfl
@[simp] theorem State.jump_sp (t : Addr) : (s.jump t).sp = s.sp := rfl
@[simp] theorem State.jump_pc (t : Addr) : (s.jump t).pc = t := rfl
@[simp] theorem State.jump_p (t : Addr) : (s.jump t).p = s.p := rfl
@[simp] theorem State.jump_mem (t : Addr) : (s.jump t).mem = s.mem := rfl
@[simp] theorem State.jump_illegalSeen (t : Addr) : (s.jump t).illegalSeen = s.illegalSeen := rfl
@[simp] theorem State.jump_outcome (t : Addr) : (s.jump t).outcome = s.outcome := rfl

/-! `finish` -/

@[simp] theorem State.finish_a (i : Instr) (c : Bool) (e : Nat) : (s.finish i c e).a = s.a := rfl
@[simp] theorem State.finish_x (i : Instr) (c : Bool) (e : Nat) : (s.finish i c e).x = s.x := rfl
@[simp] theorem State.finish_y (i : Instr) (c : Bool) (e : Nat) : (s.finish i c e).y = s.y := rfl
@[simp] theorem State.finish_sp (i : Instr) (c : Bool) (e : Nat) : (s.finish i c e).sp = s.sp := rfl
@[simp] theorem State.finish_pc (i : Instr) (c : Bool) (e : Nat) : (s.finish i c e).pc = s.pc := rfl
@[simp] theorem State.finish_p (i : Instr) (c : Bool) (e : Nat) : (s.finish i c e).p = s.p := rfl
@[simp] theorem State.finish_mem (i : Instr) (c : Bool) (e : Nat) : (s.finish i c e).mem = s.mem := rfl
@[simp] theorem State.finish_illegalSeen (i : Instr) (c : Bool) (e : Nat) : (s.finish i c e).illegalSeen = s.illegalSeen := rfl
@[simp] theorem State.finish_outcome (i : Instr) (c : Bool) (e : Nat) : (s.finish i c e).outcome = .ok (cycles i.cost c e) := rfl

/-! `raiseIllegal` -/

@[simp] theorem State.raiseIllegal_a (op : Byte) : (s.raiseIllegal op).a = s.a := rfl
@[simp] theorem State.raiseIllegal_x (op : Byte) : (s.raiseIllegal op).x = s.x := rfl
@[simp] theorem State.raiseIllegal_y (op : Byte) : (s.raiseIllegal op).y = s.y := rfl
@[simp] theorem State.raiseIllegal_sp (op : Byte) : (s.raiseIllegal op).sp = s.sp := rfl
@[simp] theorem State.raiseIllegal_pc (op : Byte) : (s.raiseIllegal op).pc = s.pc := rfl
@[simp] theorem State.raiseIllegal_p (op : Byte) : (s.raiseIllegal op).p = s.p := rfl
@[simp] theorem State.raiseIllegal_mem (op : Byte) : (s.raiseIllegal op).mem = s.mem := rfl
@[simp] theorem State.raiseIllegal_illegalSeen (op : Byte) : (s.raiseIllegal op).illegalSeen = true := rfl
@[simp] theorem State.raiseIllegal_outcome (op : Byte) : (s.raiseIllegal op).outcome = .illegal op (s.pc - 1) := rfl

/-! `reportedCycles`: what each end of a step reports (R63, R161) -/

@[simp] theorem State.reportedCycles_finish (i : Instr) (c : Bool) (e : Nat) :
    (s.finish i c e).reportedCycles = some (cycles i.cost c e) := rfl
@[simp] theorem State.reportedCycles_raiseIllegal (op : Byte) : (s.raiseIllegal op).reportedCycles = some 0 := rfl

/-! `push` -/

@[simp] theorem State.push_a (v : Byte) : (s.push v).a = s.a := rfl
@[simp] theorem State.push_x (v : Byte) : (s.push v).x = s.x := rfl
@[simp] theorem State.push_y (v : Byte) : (s.push v).y = s.y := rfl
@[simp] theorem State.push_sp (v : Byte) : (s.push v).sp = s.sp - 1 := rfl
@[simp] theorem State.push_pc (v : Byte) : (s.push v).pc = s.pc := rfl
@[simp] theorem State.push_p (v : Byte) : (s.push v).p = s.p := rfl
@[simp] theorem State.push_mem (v : Byte) : (s.push v).mem = s.mem.write (stackAddr s.sp) v := rfl
@[simp] theorem State.push_illegalSeen (v : Byte) : (s.push v).illegalSeen = s.illegalSeen := rfl
@[simp] theorem State.push_outcome (v : Byte) : (s.push v).outcome = s.outcome := rfl

/-! the state after `pull` -/

@[simp] theorem State.pull_snd_a  : (s.pull.2).a = s.a := rfl
@[simp] theorem State.pull_snd_x  : (s.pull.2).x = s.x := rfl
@[simp] theorem State.pull_snd_y  : (s.pull.2).y = s.y := rfl
@[simp] theorem State.pull_snd_sp  : (s.pull.2).sp = s.sp + 1 := rfl
@[simp] theorem State.pull_snd_pc  : (s.pull.2).pc = s.pc := rfl
@[simp] theorem State.pull_snd_p  : (s.pull.2).p = s.p := rfl
@[simp] theorem State.pull_snd_mem  : (s.pull.2).mem = s.mem := rfl
@[simp] theorem State.pull_snd_illegalSeen  : (s.pull.2).illegalSeen = s.illegalSeen := rfl
@[simp] theorem State.pull_snd_outcome  : (s.pull.2).outcome = s.outcome := rfl

/-! `returnFromInterrupt` -/

@[simp] theorem State.returnFromInterrupt_a  : (s.returnFromInterrupt).a = s.a := rfl
@[simp] theorem State.returnFromInterrupt_x  : (s.returnFromInterrupt).x = s.x := rfl
@[simp] theorem State.returnFromInterrupt_y  : (s.returnFromInterrupt).y = s.y := rfl
@[simp] theorem State.returnFromInterrupt_sp  : (s.returnFromInterrupt).sp = s.sp + 1 + 1 + 1 := rfl
@[simp] theorem State.returnFromInterrupt_pc  : (s.returnFromInterrupt).pc = word (s.read (stackAddr (s.sp + 1 + 1))) (s.read (stackAddr (s.sp + 1 + 1 + 1))) := rfl
@[simp] theorem State.returnFromInterrupt_p  : (s.returnFromInterrupt).p = s.read (stackAddr (s.sp + 1)) ||| 0x20#8 := rfl
@[simp] theorem State.returnFromInterrupt_mem  : (s.returnFromInterrupt).mem = s.mem := rfl
@[simp] theorem State.returnFromInterrupt_illegalSeen  : (s.returnFromInterrupt).illegalSeen = s.illegalSeen := rfl
@[simp] theorem State.returnFromInterrupt_outcome  : (s.returnFromInterrupt).outcome = s.outcome := rfl

/-! the byte `pull` reads, and `fetch8` -/

@[simp] theorem State.pull_fst : s.pull.1 = s.read (stackAddr (s.sp + 1)) := rfl

@[simp] theorem State.fetch8_fst : s.fetch8.1 = s.read s.pc := rfl

@[simp] theorem State.fetch8_snd : s.fetch8.2 = s.jump (s.pc + 1) := rfl

/-! registers, flags and memory read through an update that does not touch them -/

@[simp] theorem State.reg_setFlag (q : Reg) (f : Flag) (v : Bool) : (s.setFlag f v).reg q = s.reg q := by cases q <;> rfl
@[simp] theorem State.read_setFlag (k : Addr) (f : Flag) (v : Bool) : (s.setFlag f v).read k = s.read k := by
  simp [State.read]
@[simp] theorem State.reg_writeP (q : Reg) (v : Byte) : (s.writeP v).reg q = s.reg q := by cases q <;> rfl
@[simp] theorem State.read_writeP (k : Addr) (v : Byte) : (s.writeP v).read k = s.read k := by
  simp [State.read]
@[simp] theorem State.reg_setNZ (q : Reg) (v : Byte) : (s.setNZ v).reg q = s.reg q := by cases q <;> rfl
@[simp] theorem State.read_setNZ (k : Addr) (v : Byte) : (s.setNZ v).read k = s.read k := by
  simp [State.read]
@[simp] theorem State.reg_compare (q : Reg) (a m : Byte) : (s.compare a m).reg q = s.reg q := by cases q <;> rfl
@[simp] theorem State.read_compare (k : Addr) (a m : Byte) : (s.compare a m).read k = s.read k := by
  simp [State.read]
@[simp] theorem State.reg_write (q : Reg) (k : Addr) (v : Byte) : (s.write k v).reg q = s.reg q := by cases q <;> rfl
@[simp] theorem State.flag_write (g : Flag) (k : Addr) (v : Byte) : (s.write k v).flag g = s.flag g := by
  simp [State.flag]
@[simp] theorem State.bit5_write (k : Addr) (v : Byte) : (s.write k v).bit5 = s.bit5 := by
  simp [State.bit5]
@[simp] theorem State.reg_jump (q : Reg) (t : Addr) : (s.jump t).reg q = s.reg q := by cases q <;> rfl
@[simp] theorem State.flag_jump (g : Flag) (t : Addr) : (s.jump t).flag g = s.flag g := by
  simp [State.flag]
@[simp] theorem State.bit5_jump (t : Addr) : (s.jump t).bit5 = s.bit5 := by
  simp [State.bit5]
@[simp] theorem State.read_jump (k : Addr) (t : Addr) : (s.jump t).read k = s.read k := by
  simp [State.read]
@[simp] theorem State.reg_finish (q : Reg) (i : Instr) (c : Bool) (e : Nat) : (s.finish i c e).reg q = s.reg q := by cases q <;> rfl
@[simp] theorem State.flag_finish (g : Flag) (i : Instr) (c : Bool) (e : Nat) : (s.finish i c e).flag g = s.flag g := by
  simp [State.flag]
@[simp] theorem State.bit5_finish (i : Instr) (c : Bool) (e : Nat) : (s.finish i c e).bit5 = s.bit5 := by
  simp [State.bit5]
@[simp] theorem State.read_finish (k : Addr) (i : Instr) (c : Bool) (e : Nat) : (s.finish i c e).read k = s.read k := by
  simp [State.read]
@[simp] theorem State.reg_raiseIllegal (q : Reg) (op : Byte) : (s.raiseIllegal op).reg q = s.reg q := by cases q <;> rfl
@[simp] theorem State.flag_raiseIllegal (g : Flag) (op : Byte) : (s.raiseIllegal op).flag g = s.flag g := by
  simp [State.flag]
@[simp] theorem State.bit5_raiseIllegal (op : Byte) : (s.raiseIllegal op).bit5 = s.bit5 := by
  simp [State.bit5]
@[simp] theorem State.read_raiseIllegal (k : Addr) (op : Byte) : (s.raiseIllegal op).read k = s.read k := by
  simp [State.read]
@[simp] theorem State.flag_setReg (g : Flag) (r : Reg) (v : Byte) : (s.setReg r v).flag g = s.flag g := by
  simp [State.flag]
@[simp] theorem State.bit5_setReg (r : Reg) (v : Byte) : (s.setReg r v).bit5 = s.bit5 := by
  simp [State.bit5]
@[simp] theorem State.read_setReg (k : Addr) (r : Reg) (v : Byte) : (s.setReg r v).read k = s.read k := by
  simp [State.read]

end Sys2Proof.Machine
end

