-- ==== Sys2Proof/Laws/Flags.lean ====
section
/-! SUPPORT. What each write of P does to each flag and to bit 5 (10_state.md R21, R22, R27). -/

namespace Sys2Proof.Machine

variable (s : State)

theorem Flag.bit_lt (f : Flag) : f.bit < 8 := by cases f <;> decide

theorem Flag.bit_eq (f g : Flag) : (f.bit = g.bit) = (f = g) := by cases f <;> cases g <;> simp [Flag.bit]

theorem Flag.bit_ne_5 (f : Flag) : 5 ≠ f.bit := by cases f <;> decide

/-- `P.f <- v` changes bit `f` of P and no other (R10, R21). -/
theorem State.getLsbD_setFlag (f : Flag) (v : Bool) (k : Nat) (hk : k < 8) :
    (s.setFlag f v).p.getLsbD k = if k = f.bit then v else s.p.getLsbD k := by
  have h := f.bit_lt
  unfold State.setFlag Flag.mask
  cases v <;> grind

theorem State.flag_setFlag (f g : Flag) (v : Bool) : (s.setFlag f v).flag g = if g = f then v else s.flag g := by
  simp only [State.flag, State.getLsbD_setFlag _ _ _ _ g.bit_lt, Flag.bit_eq]

@[simp] theorem State.bit5_setFlag (f : Flag) (v : Bool) : (s.setFlag f v).bit5 = s.bit5 := by
  simp only [State.bit5, State.getLsbD_setFlag _ _ _ 5 (by decide), Flag.bit_ne_5, if_false]

theorem State.flag_setNZ (v : Byte) (g : Flag) :
    (s.setNZ v).flag g = if g = .n then v.msb else if g = .z then v == 0 else s.flag g := by
  simp [State.setNZ, State.flag_setFlag]

@[simp] theorem State.bit5_setNZ (v : Byte) : (s.setNZ v).bit5 = s.bit5 := by simp [State.setNZ]

theorem State.flag_compare (r m : Byte) (g : Flag) :
    (s.compare r m).flag g =
      if g = .n then (r - m).msb else if g = .z then r == m else if g = .c then decide (r.toNat ≥ m.toNat)
      else s.flag g := by
  simp [State.compare, State.flag_setFlag]

@[simp] theorem State.bit5_compare (r m : Byte) : (s.compare r m).bit5 = s.bit5 := by simp [State.compare]

/-- Writing the whole of P loads every flag from its bit of the byte ... -/
@[simp] theorem State.flag_writeP (v : Byte) (g : Flag) : (s.writeP v).flag g = v.getLsbD g.bit := by
  cases g <;> simp [State.flag, Flag.bit]

/-- ... and forces bit 5 to 1 (R22). -/
@[simp] theorem State.bit5_writeP (v : Byte) : (s.writeP v).bit5 = true := by simp [State.bit5]

end Sys2Proof.Machine
end

