-- ==== Sys2Proof/Laws/Memory.lean ====
section
/-! SUPPORT. The two laws of memory (20_memory.md R35): a read sees the latest write, and every memory operation keeps the
canonical form. -/

namespace Sys2Proof.Machine

theorem Memory.read_put (m : Memory) (k : Nat) (v : Byte) (b : Addr) :
    (Memory.put m k v).read b = if k = b.toNat then v else m.read b := by
  induction m with
  | nil => simp [Memory.put, Memory.read]
  | cons c m ih => grind [Memory.put, Memory.read]

theorem Memory.read_drop (m : Memory) (k : Nat) (b : Addr) :
    (Memory.drop m k).read b = if k = b.toNat then Config.unlistedByte else m.read b := by
  induction m with
  | nil => simp [Memory.drop, Memory.read]
  | cons c m ih => grind [Memory.drop, Memory.read]

/-- `MemWrite` then `MemRead` (R35): the written byte there, every other byte as before. -/
theorem Memory.read_write (m : Memory) (a b : Addr) (v : Byte) :
    (m.write a v).read b = if b = a then v else m.read b := by
  have h : (a.toNat = b.toNat) = (b = a) := propext (BitVec.toNat_inj.trans eq_comm)
  unfold Memory.write
  split
  · rename_i hv
    simp only [Memory.read_drop, h, hv]
  · simp only [Memory.read_put, h]

theorem State.read_write (s : State) (a b : Addr) (v : Byte) :
    (s.write a v).read b = if b = a then v else s.read b := Memory.read_write _ _ _ _

@[simp] theorem State.read_write_same (s : State) (a : Addr) (v : Byte) : (s.write a v).read a = v := by
  simp [State.read_write]

theorem Memory.wf_nil : Memory.wf [] := by simp [Memory.wf]

theorem Memory.mem_put (m : Memory) (k : Nat) (v : Byte) (c : Host.Cell) (h : c ∈ Memory.put m k v) :
    c = (k, v) ∨ c ∈ m := by
  induction m with
  | nil => simp_all [Memory.put]
  | cons d m ih => grind [Memory.put]

theorem Memory.wf_put (m : Memory) (k : Nat) (v : Byte) (hm : m.wf) (hk : k < Config.memorySize)
    (hv : v ≠ Config.unlistedByte) : (Memory.put m k v).wf := by
  obtain ⟨rising, cells⟩ := hm
  refine ⟨?_, fun c hc => ?_⟩
  · clear cells
    induction m with
    | nil => simp [Memory.put]
    | cons d m ih =>
      rw [List.pairwise_cons] at rising
      unfold Memory.put
      split
      · grind [List.pairwise_cons]
      · split
        · grind [List.pairwise_cons]
        · refine List.pairwise_cons.2 ⟨fun c hc => ?_, ih rising.2⟩
          rcases Memory.mem_put m k v c hc with rfl | h
          · simp only; omega
          · exact rising.1 c h
  · rcases Memory.mem_put m k v c hc with rfl | h
    · exact ⟨hk, hv⟩
    · exact cells c h

theorem Memory.wf_drop (m : Memory) (k : Nat) (hm : m.wf) : (Memory.drop m k).wf :=
  ⟨hm.1.filter _, fun c hc => hm.2 c (List.mem_of_mem_filter hc)⟩

/-- Every write keeps the canonical form. -/
theorem Memory.wf_write (m : Memory) (a : Addr) (v : Byte) (hm : m.wf) : (m.write a v).wf := by
  unfold Memory.write
  split
  · exact Memory.wf_drop m _ hm
  · exact Memory.wf_put m _ v hm a.isLt ‹_›

/-- The loader leaves a canonical memory. -/
theorem Memory.wf_ofCells (cells : List (Addr × Byte)) : (Memory.ofCells cells).wf := by
  suffices ∀ m : Memory, m.wf → (cells.foldl (fun m c => m.write c.1 c.2) m).wf from this [] Memory.wf_nil
  induction cells with
  | nil => exact fun _ h => h
  | cons c cells ih => exact fun m h => ih _ (Memory.wf_write m _ _ h)

theorem State.wf_storeBytes (s : State) (a : Addr) (bytes : List Byte) (h : s.mem.wf) :
    (s.storeBytes a bytes).mem.wf := by
  induction bytes generalizing s a with
  | nil => exact h
  | cons v vs ih => exact ih _ _ (Memory.wf_write _ _ _ h)

end Sys2Proof.Machine
end

