-- ==== Sys2Proof/Laws/Operands.lean ====
section
/-! SUPPORT. Byte order, operand access and the resolvers: what each gives, once. -/

namespace Sys2Proof

@[simp] theorem lo_word (l h : Byte) : lo (word l h) = l := by
  unfold lo word; grind

@[simp] theorem hi_word (l h : Byte) : hi (word l h) = h := by
  unfold hi word; grind

@[simp] theorem word_lo_hi (w : Addr) : word (lo w) (hi w) = w := by
  unfold lo hi word; grind

/-- The little-endian word as a number (R36). -/
theorem toNat_word (l h : Byte) : (word l h).toNat = l.toNat + 256 * h.toNat := by
  unfold word
  rw [BitVec.toNat_append, ← Nat.shiftLeft_add_eq_or_of_lt l.isLt, Nat.shiftLeft_eq]
  omega

namespace Machine

variable (s : State)

/-- `ReadOperand` (R78), mode by mode. -/
theorem State.readOperand_resolve (o : Operand) :
    s.readOperand (resolve o s) =
      match o with
      | .acc => s.a
      | .imm v => v
      | o => s.read (resolve o s).ea := by
  cases o <;> rfl

/-- `WriteOperand` (R79): A in accumulator mode, else the byte at EA. -/
theorem State.writeOperand_cases (ctx : Ctx) (v : Byte) :
    (ctx.mode = .acc ∧ s.writeOperand ctx v = s.setReg .a v) ∨
    (ctx.mode ≠ .acc ∧ s.writeOperand ctx v = s.write ctx.ea v) := by
  unfold State.writeOperand
  split
  · exact .inl ⟨‹_›, rfl⟩
  · exact .inr ⟨‹_›, rfl⟩

@[simp] theorem State.flag_writeOperand (ctx : Ctx) (v : Byte) (g : Flag) :
    (s.writeOperand ctx v).flag g = s.flag g := by
  rcases s.writeOperand_cases ctx v with ⟨_, e⟩ | ⟨_, e⟩ <;> rw [e] <;> simp

@[simp] theorem State.bit5_writeOperand (ctx : Ctx) (v : Byte) : (s.writeOperand ctx v).bit5 = s.bit5 := by
  rcases s.writeOperand_cases ctx v with ⟨_, e⟩ | ⟨_, e⟩ <;> rw [e] <;> simp

theorem State.wf_writeOperand (ctx : Ctx) (v : Byte) (h : s.mem.wf) : (s.writeOperand ctx v).mem.wf := by
  rcases s.writeOperand_cases ctx v with ⟨_, e⟩ | ⟨_, e⟩ <;> rw [e]
  · exact h
  · exact Memory.wf_write _ _ _ h

/-- A resolver reads X, Y and memory, and nothing else of the state (R65 to R77). -/
theorem resolve_congr (o : Operand) (s t : State) (hx : t.x = s.x) (hy : t.y = s.y) (hm : t.mem = s.mem) :
    resolve o t = resolve o s := by
  cases o <;> simp [resolve, State.zeroPageWord, State.readWord, State.read, hx, hy, hm]

@[simp] theorem resolve_mode (o : Operand) : (resolve o s).mode = o.mode := by
  cases o <;> rfl

/-! `withTarget` gives the context its `ea` and leaves the rest -/

@[simp] theorem Ctx.withTarget_mode (c : Ctx) (b : Addr) : (c.withTarget b).mode = c.mode := rfl
@[simp] theorem Ctx.withTarget_ea (c : Ctx) (b : Addr) : (c.withTarget b).ea = b + sext16 c.imm := rfl
@[simp] theorem Ctx.withTarget_imm (c : Ctx) (b : Addr) : (c.withTarget b).imm = c.imm := rfl
@[simp] theorem Ctx.withTarget_crossed (c : Ctx) (b : Addr) : (c.withTarget b).crossed = c.crossed := rfl

/-- A push stores at the old SP alone (R42). -/
theorem State.read_push (v : Byte) (b : Addr) :
    (s.push v).read b = if b = stackAddr s.sp then v else s.read b := by
  simp [State.read, Memory.read_write]

/-- A pull stores nothing (R43). -/
@[simp] theorem State.read_pull_snd (b : Addr) : s.pull.2.read b = s.read b := by simp [State.read]

/-- The fetch moves PC and nothing else (R54, R18). -/
theorem fetchInstr_snd : (fetchInstr s).2 = s.jump (fetchInstr s).2.pc := by
  unfold fetchInstr
  simp only [State.fetch8_fst, State.fetch8_snd]
  split
  · rfl
  · split <;> rfl

/-- A stack address has page 1 as its high byte (R19). -/
theorem hi_stackAddr (sp : Byte) : hi (stackAddr sp) = 0x01#8 := by
  revert sp; decide

/-- Two SP values that differ designate two stack bytes that differ. -/
theorem stackAddr_inj {p q : Byte} : stackAddr p = stackAddr q ↔ p = q := by
  have h : ∀ p : Byte, lo (stackAddr p) = p := by decide
  exact ⟨fun e => by rw [← h p, ← h q, e], fun e => by rw [e]⟩

end Machine

end Sys2Proof
end

