-- ==== Sys2Proof/Laws/Meanings.lean ====
section
/-! SUPPORT. The inversion lemma of each shared meaning: if it answers `next t`, then `t` is this. A proof about an
instruction cites these and does not unfold the meaning. -/

namespace Sys2Proof.Machine

variable {s t : State} {i : Instr}

theorem loadInto_next {r : Reg} (h : loadInto i r s = .next t) :
    t = ((s.setReg r (s.readOperand (resolve i.operand s))).setNZ (s.readOperand (resolve i.operand s))).finish i
      (resolve i.operand s).crossed 0 := by
  cases h; rfl

theorem storeFrom_next {r : Reg} (h : storeFrom i r s = .next t) :
    t = (s.write (resolve i.operand s).ea (s.reg r)).finish i (resolve i.operand s).crossed 0 := by
  cases h; rfl

theorem arithmetic_next {alu : Byte → Byte → Bool → AluResult} (h : arithmetic i alu s = .next t) :
    ∃ r, r = alu s.a (s.readOperand (resolve i.operand s)) (s.flag .c) ∧
      t = ((((s.setFlag .c r.carry).setFlag .v r.overflow).setReg .a r.value).setNZ r.value).finish i
        (resolve i.operand s).crossed 0 := by
  cases h; exact ⟨_, rfl, rfl⟩

theorem logic_next {op : Byte → Byte → Byte} (h : logic i op s = .next t) :
    ∃ r, r = op s.a (s.readOperand (resolve i.operand s)) ∧
      t = ((s.setReg .a r).setNZ r).finish i (resolve i.operand s).crossed 0 := by
  cases h; exact ⟨_, rfl, rfl⟩

theorem shift_next {k : ShiftKind} (h : shift i k s = .next t) :
    ∃ v r, v = s.readOperand (resolve i.operand s) ∧ r = k.result v (s.flag .c) ∧
      t = (((s.setFlag .c (k.carryOut v)).writeOperand (resolve i.operand s) r).setNZ r).finish i
        (resolve i.operand s).crossed 0 := by
  cases h; exact ⟨_, _, rfl, rfl, rfl⟩

theorem compareReg_next {r : Reg} (h : compareReg i r s = .next t) :
    t = (s.compare (s.reg r) (s.readOperand (resolve i.operand s))).finish i (resolve i.operand s).crossed 0 := by
  cases h; rfl

theorem stepMemory_next {delta : Byte} (h : stepMemory i delta s = .next t) :
    ∃ r, r = s.read (resolve i.operand s).ea + delta ∧
      t = ((s.write (resolve i.operand s).ea r).setNZ r).finish i (resolve i.operand s).crossed 0 := by
  cases h; exact ⟨_, rfl, rfl⟩

theorem stepReg_next {r : Reg} {delta : Byte} (h : stepReg i r delta s = .next t) :
    ∃ v, v = s.reg r + delta ∧ t = ((s.setReg r v).setNZ v).finish i false 0 := by
  cases h; exact ⟨_, rfl, rfl⟩

/-- The context of a branch, field by field (R28, R71). -/
theorem branchCtx_eq (d : Byte) (s : State) :
    branchCtx d s = { mode := .rel, ea := s.pc + sext16 d, imm := d, crossed := false } := rfl

theorem branch_next {d : Byte} {cond : Bool} (h : branch i d cond s = .next t) :
    (cond = true ∧ t = (s.jump (s.pc + sext16 d)).finish i false
      (1 + if pageCrossed s.pc (s.pc + sext16 d) then 1 else 0)) ∨
    (cond = false ∧ t = s.finish i false 0) := by
  cases cond
  · exact .inr ⟨rfl, by cases h; rfl⟩
  · exact .inl ⟨rfl, by cases h; rfl⟩

theorem writeFlag_next {f : Flag} {v : Bool} (h : writeFlag i f v s = .next t) :
    t = (s.setFlag f v).finish i false 0 := by
  cases h; rfl

theorem transfer_next {src dst : Reg} (h : transfer i src dst s = .next t) :
    t = ((s.setReg dst (s.reg src)).setNZ (s.reg src)).finish i false 0 := by
  cases h; rfl

/-- A step is `exec` of the fetched instruction in the state behind it. -/
theorem step_eq (s : State) : step s = exec (fetchInstr s).1 (fetchInstr s).2 := rfl

end Sys2Proof.Machine
end

