-- ==== Sys2Proof/Laws/PerInstr.lean ====
section
/-! SUPPORT. The family `OpcodeRow`, one lemma a constructor: an instruction's opcode byte selects, in the dispatch table, the
entry that builds the instruction from its operand bytes. It ties the encoder's opcode lists to the matrix of R57. -/

namespace Sys2Proof.Laws.OpcodeRow

/-- The instruction an entry builds, given the assembled operand of the same format. -/
def builds (f : Format) (o : Operand) : Option Instr :=
  match f, o with
  | .f1 i, .imp | .f1 i, .acc => some i
  | .f2 mk, .imm b | .f2 mk, .rel b | .f2 mk, .zp b | .f2 mk, .zpx b | .f2 mk, .zpy b | .f2 mk, .izx b | .f2 mk, .izy b =>
    some (mk b)
  | .f3 mk, .abs w | .f3 mk, .abx w | .f3 mk, .aby w | .f3 mk, .ind w => some (mk w)
  | _, _ => none

/-- The row of a well-formed instruction: the entry that builds it, or no entry for an undefined byte. -/
def Statement (i : Instr) : Prop :=
  i.wf = true →
    match dispatch i.opcode with
    | some e => builds e.format i.operand = some i
    | none => i = .undefined i.opcode

theorem lda (f : AluForm) : Statement (.lda f) := fun _ => by cases f <;> simp only [Instr.opcode] <;> exact rfl

theorem ldx (f : LdxForm) : Statement (.ldx f) := fun _ => by cases f <;> simp only [Instr.opcode] <;> exact rfl

theorem ldy (f : LdyForm) : Statement (.ldy f) := fun _ => by cases f <;> simp only [Instr.opcode] <;> exact rfl

theorem sta (f : StaForm) : Statement (.sta f) := fun _ => by cases f <;> simp only [Instr.opcode] <;> exact rfl

theorem stx (f : StxForm) : Statement (.stx f) := fun _ => by cases f <;> simp only [Instr.opcode] <;> exact rfl

theorem sty (f : StyForm) : Statement (.sty f) := fun _ => by cases f <;> simp only [Instr.opcode] <;> exact rfl

theorem adc (f : AluForm) : Statement (.adc f) := fun _ => by cases f <;> simp only [Instr.opcode] <;> exact rfl

theorem sbc (f : AluForm) : Statement (.sbc f) := fun _ => by cases f <;> simp only [Instr.opcode] <;> exact rfl

theorem and (f : AluForm) : Statement (.and f) := fun _ => by cases f <;> simp only [Instr.opcode] <;> exact rfl

theorem ora (f : AluForm) : Statement (.ora f) := fun _ => by cases f <;> simp only [Instr.opcode] <;> exact rfl

theorem eor (f : AluForm) : Statement (.eor f) := fun _ => by cases f <;> simp only [Instr.opcode] <;> exact rfl

theorem asl (f : ShiftForm) : Statement (.asl f) := fun _ => by cases f <;> simp only [Instr.opcode] <;> exact rfl

theorem lsr (f : ShiftForm) : Statement (.lsr f) := fun _ => by cases f <;> simp only [Instr.opcode] <;> exact rfl

theorem rol (f : ShiftForm) : Statement (.rol f) := fun _ => by cases f <;> simp only [Instr.opcode] <;> exact rfl

theorem ror (f : ShiftForm) : Statement (.ror f) := fun _ => by cases f <;> simp only [Instr.opcode] <;> exact rfl

theorem cmp (f : AluForm) : Statement (.cmp f) := fun _ => by cases f <;> simp only [Instr.opcode] <;> exact rfl

theorem cpx (f : IndexCompareForm) : Statement (.cpx f) := fun _ => by cases f <;> simp only [Instr.opcode] <;> exact rfl

theorem cpy (f : IndexCompareForm) : Statement (.cpy f) := fun _ => by cases f <;> simp only [Instr.opcode] <;> exact rfl

theorem inc (f : IncForm) : Statement (.inc f) := fun _ => by cases f <;> simp only [Instr.opcode] <;> exact rfl

theorem dec (f : IncForm) : Statement (.dec f) := fun _ => by cases f <;> simp only [Instr.opcode] <;> exact rfl

theorem inx : Statement .inx := fun _ => rfl

theorem iny : Statement .iny := fun _ => rfl

theorem dex : Statement .dex := fun _ => rfl

theorem dey : Statement .dey := fun _ => rfl

theorem bcc (d : Byte) : Statement (.bcc d) := fun _ => by simp only [Instr.opcode]; exact rfl

theorem bcs (d : Byte) : Statement (.bcs d) := fun _ => by simp only [Instr.opcode]; exact rfl

theorem beq (d : Byte) : Statement (.beq d) := fun _ => by simp only [Instr.opcode]; exact rfl

theorem bne (d : Byte) : Statement (.bne d) := fun _ => by simp only [Instr.opcode]; exact rfl

theorem bmi (d : Byte) : Statement (.bmi d) := fun _ => by simp only [Instr.opcode]; exact rfl

theorem bpl (d : Byte) : Statement (.bpl d) := fun _ => by simp only [Instr.opcode]; exact rfl

theorem bvc (d : Byte) : Statement (.bvc d) := fun _ => by simp only [Instr.opcode]; exact rfl

theorem bvs (d : Byte) : Statement (.bvs d) := fun _ => by simp only [Instr.opcode]; exact rfl

theorem jmp (f : JmpForm) : Statement (.jmp f) := fun _ => by cases f <;> simp only [Instr.opcode] <;> exact rfl

theorem jsr (target : Addr) : Statement (.jsr target) := fun _ => by simp only [Instr.opcode]; exact rfl

theorem rts : Statement .rts := fun _ => rfl

theorem rti : Statement .rti := fun _ => rfl

theorem pha : Statement .pha := fun _ => rfl

theorem php : Statement .php := fun _ => rfl

theorem pla : Statement .pla := fun _ => rfl

theorem plp : Statement .plp := fun _ => rfl

theorem clc : Statement .clc := fun _ => rfl

theorem sec : Statement .sec := fun _ => rfl

theorem cld : Statement .cld := fun _ => rfl

theorem sed : Statement .sed := fun _ => rfl

theorem cli : Statement .cli := fun _ => rfl

theorem sei : Statement .sei := fun _ => rfl

theorem clv : Statement .clv := fun _ => rfl

theorem tax : Statement .tax := fun _ => rfl

theorem tay : Statement .tay := fun _ => rfl

theorem txa : Statement .txa := fun _ => rfl

theorem tya : Statement .tya := fun _ => rfl

theorem tsx : Statement .tsx := fun _ => rfl

theorem txs : Statement .txs := fun _ => rfl

theorem bit (f : BitForm) : Statement (.bit f) := fun _ => by cases f <;> simp only [Instr.opcode] <;> exact rfl

theorem nop : Statement .nop := fun _ => rfl

theorem brk : Statement .brk := fun _ => rfl

theorem undefined (op : Byte) : Statement (.undefined op) := by
  have h : ∀ op : Byte, undefinedOpcodes.contains op = true → (dispatch op).isNone = true := by decide
  intro hw
  have hn := Option.isNone_iff_eq_none.1 (h op hw)
  simp only [Instr.opcode, hn]

end Sys2Proof.Laws.OpcodeRow
end

