-- ==== Sys2Proof/Tests/Slice0.lean ====
section
/-! SUPPORT. The model's own tests. The expected values are the spec's: the words of opcode_table.json's `encoding` column, and
the vectors of 95_test_vectors.md and of the instruction rules' examples, each over one step. Then the witnesses: for every
statement with hypotheses, a state and operands that meet them together. -/

namespace Sys2Proof.Tests

open Sys2Proof.Machine Sys2Proof.Machine.Claims

/-! ## Well-formedness: the one check -/

theorem test_wf_refuses_a_defined_byte_as_undefined : (Instr.undefined 0xEA#8).wf = false := by decide

theorem test_wf_accepts_an_undefined_byte : (Instr.undefined 0x02#8).wf = true := by decide

/-! ## Decoding: every row of the table, the opcode byte in its bits as the `encoding` column has them -/

/-- The bytes decode to the instruction, with none left over. -/
def decodes (bytes : List Byte) (i : Instr) : Bool :=
  match decode bytes with
  | .ok (j, []) => decide (j = i)
  | _ => false

theorem test_decode_load_store :
    decodes [0b10100001#8, 0x9C#8] (.lda (.izx 0x9C#8)) = true ∧
    decodes [0b10100101#8, 0x9C#8] (.lda (.zp 0x9C#8)) = true ∧
    decodes [0b10101001#8, 0x9C#8] (.lda (.imm 0x9C#8)) = true ∧
    decodes [0b10101101#8, 0x34#8, 0xA7#8] (.lda (.abs 0xA734#16)) = true ∧
    decodes [0b10110001#8, 0x9C#8] (.lda (.izy 0x9C#8)) = true ∧
    decodes [0b10110101#8, 0x9C#8] (.lda (.zpx 0x9C#8)) = true ∧
    decodes [0b10111001#8, 0x34#8, 0xA7#8] (.lda (.aby 0xA734#16)) = true ∧
    decodes [0b10111101#8, 0x34#8, 0xA7#8] (.lda (.abx 0xA734#16)) = true ∧
    decodes [0b10100010#8, 0x9C#8] (.ldx (.imm 0x9C#8)) = true ∧
    decodes [0b10100110#8, 0x9C#8] (.ldx (.zp 0x9C#8)) = true ∧
    decodes [0b10101110#8, 0x34#8, 0xA7#8] (.ldx (.abs 0xA734#16)) = true ∧
    decodes [0b10110110#8, 0x9C#8] (.ldx (.zpy 0x9C#8)) = true ∧
    decodes [0b10111110#8, 0x34#8, 0xA7#8] (.ldx (.aby 0xA734#16)) = true ∧
    decodes [0b10100000#8, 0x9C#8] (.ldy (.imm 0x9C#8)) = true ∧
    decodes [0b10100100#8, 0x9C#8] (.ldy (.zp 0x9C#8)) = true ∧
    decodes [0b10101100#8, 0x34#8, 0xA7#8] (.ldy (.abs 0xA734#16)) = true ∧
    decodes [0b10110100#8, 0x9C#8] (.ldy (.zpx 0x9C#8)) = true ∧
    decodes [0b10111100#8, 0x34#8, 0xA7#8] (.ldy (.abx 0xA734#16)) = true ∧
    decodes [0b10000001#8, 0x9C#8] (.sta (.izx 0x9C#8)) = true ∧
    decodes [0b10000101#8, 0x9C#8] (.sta (.zp 0x9C#8)) = true ∧
    decodes [0b10001101#8, 0x34#8, 0xA7#8] (.sta (.abs 0xA734#16)) = true ∧
    decodes [0b10010001#8, 0x9C#8] (.sta (.izy 0x9C#8)) = true ∧
    decodes [0b10010101#8, 0x9C#8] (.sta (.zpx 0x9C#8)) = true ∧
    decodes [0b10011001#8, 0x34#8, 0xA7#8] (.sta (.aby 0xA734#16)) = true ∧
    decodes [0b10011101#8, 0x34#8, 0xA7#8] (.sta (.abx 0xA734#16)) = true ∧
    decodes [0b10000110#8, 0x9C#8] (.stx (.zp 0x9C#8)) = true ∧
    decodes [0b10001110#8, 0x34#8, 0xA7#8] (.stx (.abs 0xA734#16)) = true ∧
    decodes [0b10010110#8, 0x9C#8] (.stx (.zpy 0x9C#8)) = true ∧
    decodes [0b10000100#8, 0x9C#8] (.sty (.zp 0x9C#8)) = true ∧
    decodes [0b10001100#8, 0x34#8, 0xA7#8] (.sty (.abs 0xA734#16)) = true ∧
    decodes [0b10010100#8, 0x9C#8] (.sty (.zpx 0x9C#8)) = true := by
  decide

theorem test_decode_arithmetic_logic :
    decodes [0b01100001#8, 0x9C#8] (.adc (.izx 0x9C#8)) = true ∧
    decodes [0b01100101#8, 0x9C#8] (.adc (.zp 0x9C#8)) = true ∧
    decodes [0b01101001#8, 0x9C#8] (.adc (.imm 0x9C#8)) = true ∧
    decodes [0b01101101#8, 0x34#8, 0xA7#8] (.adc (.abs 0xA734#16)) = true ∧
    decodes [0b01110001#8, 0x9C#8] (.adc (.izy 0x9C#8)) = true ∧
    decodes [0b01110101#8, 0x9C#8] (.adc (.zpx 0x9C#8)) = true ∧
    decodes [0b01111001#8, 0x34#8, 0xA7#8] (.adc (.aby 0xA734#16)) = true ∧
    decodes [0b01111101#8, 0x34#8, 0xA7#8] (.adc (.abx 0xA734#16)) = true ∧
    decodes [0b11100001#8, 0x9C#8] (.sbc (.izx 0x9C#8)) = true ∧
    decodes [0b11100101#8, 0x9C#8] (.sbc (.zp 0x9C#8)) = true ∧
    decodes [0b11101001#8, 0x9C#8] (.sbc (.imm 0x9C#8)) = true ∧
    decodes [0b11101101#8, 0x34#8, 0xA7#8] (.sbc (.abs 0xA734#16)) = true ∧
    decodes [0b11110001#8, 0x9C#8] (.sbc (.izy 0x9C#8)) = true ∧
    decodes [0b11110101#8, 0x9C#8] (.sbc (.zpx 0x9C#8)) = true ∧
    decodes [0b11111001#8, 0x34#8, 0xA7#8] (.sbc (.aby 0xA734#16)) = true ∧
    decodes [0b11111101#8, 0x34#8, 0xA7#8] (.sbc (.abx 0xA734#16)) = true ∧
    decodes [0b00100001#8, 0x9C#8] (.and (.izx 0x9C#8)) = true ∧
    decodes [0b00100101#8, 0x9C#8] (.and (.zp 0x9C#8)) = true ∧
    decodes [0b00101001#8, 0x9C#8] (.and (.imm 0x9C#8)) = true ∧
    decodes [0b00101101#8, 0x34#8, 0xA7#8] (.and (.abs 0xA734#16)) = true ∧
    decodes [0b00110001#8, 0x9C#8] (.and (.izy 0x9C#8)) = true ∧
    decodes [0b00110101#8, 0x9C#8] (.and (.zpx 0x9C#8)) = true ∧
    decodes [0b00111001#8, 0x34#8, 0xA7#8] (.and (.aby 0xA734#16)) = true ∧
    decodes [0b00111101#8, 0x34#8, 0xA7#8] (.and (.abx 0xA734#16)) = true ∧
    decodes [0b00000001#8, 0x9C#8] (.ora (.izx 0x9C#8)) = true ∧
    decodes [0b00000101#8, 0x9C#8] (.ora (.zp 0x9C#8)) = true ∧
    decodes [0b00001001#8, 0x9C#8] (.ora (.imm 0x9C#8)) = true ∧
    decodes [0b00001101#8, 0x34#8, 0xA7#8] (.ora (.abs 0xA734#16)) = true ∧
    decodes [0b00010001#8, 0x9C#8] (.ora (.izy 0x9C#8)) = true ∧
    decodes [0b00010101#8, 0x9C#8] (.ora (.zpx 0x9C#8)) = true ∧
    decodes [0b00011001#8, 0x34#8, 0xA7#8] (.ora (.aby 0xA734#16)) = true ∧
    decodes [0b00011101#8, 0x34#8, 0xA7#8] (.ora (.abx 0xA734#16)) = true ∧
    decodes [0b01000001#8, 0x9C#8] (.eor (.izx 0x9C#8)) = true ∧
    decodes [0b01000101#8, 0x9C#8] (.eor (.zp 0x9C#8)) = true ∧
    decodes [0b01001001#8, 0x9C#8] (.eor (.imm 0x9C#8)) = true ∧
    decodes [0b01001101#8, 0x34#8, 0xA7#8] (.eor (.abs 0xA734#16)) = true ∧
    decodes [0b01010001#8, 0x9C#8] (.eor (.izy 0x9C#8)) = true ∧
    decodes [0b01010101#8, 0x9C#8] (.eor (.zpx 0x9C#8)) = true ∧
    decodes [0b01011001#8, 0x34#8, 0xA7#8] (.eor (.aby 0xA734#16)) = true ∧
    decodes [0b01011101#8, 0x34#8, 0xA7#8] (.eor (.abx 0xA734#16)) = true := by
  decide

theorem test_decode_shift :
    decodes [0b00000110#8, 0x9C#8] (.asl (.zp 0x9C#8)) = true ∧
    decodes [0b00001010#8] (.asl .acc) = true ∧
    decodes [0b00001110#8, 0x34#8, 0xA7#8] (.asl (.abs 0xA734#16)) = true ∧
    decodes [0b00010110#8, 0x9C#8] (.asl (.zpx 0x9C#8)) = true ∧
    decodes [0b00011110#8, 0x34#8, 0xA7#8] (.asl (.abx 0xA734#16)) = true ∧
    decodes [0b01000110#8, 0x9C#8] (.lsr (.zp 0x9C#8)) = true ∧
    decodes [0b01001010#8] (.lsr .acc) = true ∧
    decodes [0b01001110#8, 0x34#8, 0xA7#8] (.lsr (.abs 0xA734#16)) = true ∧
    decodes [0b01010110#8, 0x9C#8] (.lsr (.zpx 0x9C#8)) = true ∧
    decodes [0b01011110#8, 0x34#8, 0xA7#8] (.lsr (.abx 0xA734#16)) = true ∧
    decodes [0b00100110#8, 0x9C#8] (.rol (.zp 0x9C#8)) = true ∧
    decodes [0b00101010#8] (.rol .acc) = true ∧
    decodes [0b00101110#8, 0x34#8, 0xA7#8] (.rol (.abs 0xA734#16)) = true ∧
    decodes [0b00110110#8, 0x9C#8] (.rol (.zpx 0x9C#8)) = true ∧
    decodes [0b00111110#8, 0x34#8, 0xA7#8] (.rol (.abx 0xA734#16)) = true ∧
    decodes [0b01100110#8, 0x9C#8] (.ror (.zp 0x9C#8)) = true ∧
    decodes [0b01101010#8] (.ror .acc) = true ∧
    decodes [0b01101110#8, 0x34#8, 0xA7#8] (.ror (.abs 0xA734#16)) = true ∧
    decodes [0b01110110#8, 0x9C#8] (.ror (.zpx 0x9C#8)) = true ∧
    decodes [0b01111110#8, 0x34#8, 0xA7#8] (.ror (.abx 0xA734#16)) = true := by
  decide

theorem test_decode_compare_incdec :
    decodes [0b11000001#8, 0x9C#8] (.cmp (.izx 0x9C#8)) = true ∧
    decodes [0b11000101#8, 0x9C#8] (.cmp (.zp 0x9C#8)) = true ∧
    decodes [0b11001001#8, 0x9C#8] (.cmp (.imm 0x9C#8)) = true ∧
    decodes [0b11001101#8, 0x34#8, 0xA7#8] (.cmp (.abs 0xA734#16)) = true ∧
    decodes [0b11010001#8, 0x9C#8] (.cmp (.izy 0x9C#8)) = true ∧
    decodes [0b11010101#8, 0x9C#8] (.cmp (.zpx 0x9C#8)) = true ∧
    decodes [0b11011001#8, 0x34#8, 0xA7#8] (.cmp (.aby 0xA734#16)) = true ∧
    decodes [0b11011101#8, 0x34#8, 0xA7#8] (.cmp (.abx 0xA734#16)) = true ∧
    decodes [0b11100000#8, 0x9C#8] (.cpx (.imm 0x9C#8)) = true ∧
    decodes [0b11100100#8, 0x9C#8] (.cpx (.zp 0x9C#8)) = true ∧
    decodes [0b11101100#8, 0x34#8, 0xA7#8] (.cpx (.abs 0xA734#16)) = true ∧
    decodes [0b11000000#8, 0x9C#8] (.cpy (.imm 0x9C#8)) = true ∧
    decodes [0b11000100#8, 0x9C#8] (.cpy (.zp 0x9C#8)) = true ∧
    decodes [0b11001100#8, 0x34#8, 0xA7#8] (.cpy (.abs 0xA734#16)) = true ∧
    decodes [0b11100110#8, 0x9C#8] (.inc (.zp 0x9C#8)) = true ∧
    decodes [0b11101110#8, 0x34#8, 0xA7#8] (.inc (.abs 0xA734#16)) = true ∧
    decodes [0b11110110#8, 0x9C#8] (.inc (.zpx 0x9C#8)) = true ∧
    decodes [0b11111110#8, 0x34#8, 0xA7#8] (.inc (.abx 0xA734#16)) = true ∧
    decodes [0b11000110#8, 0x9C#8] (.dec (.zp 0x9C#8)) = true ∧
    decodes [0b11001110#8, 0x34#8, 0xA7#8] (.dec (.abs 0xA734#16)) = true ∧
    decodes [0b11010110#8, 0x9C#8] (.dec (.zpx 0x9C#8)) = true ∧
    decodes [0b11011110#8, 0x34#8, 0xA7#8] (.dec (.abx 0xA734#16)) = true ∧
    decodes [0b11101000#8] .inx = true ∧
    decodes [0b11001000#8] .iny = true ∧
    decodes [0b11001010#8] .dex = true ∧
    decodes [0b10001000#8] .dey = true := by
  decide

theorem test_decode_branch :
    decodes [0b10010000#8, 0x9C#8] (.bcc 0x9C#8) = true ∧
    decodes [0b10110000#8, 0x9C#8] (.bcs 0x9C#8) = true ∧
    decodes [0b11110000#8, 0x9C#8] (.beq 0x9C#8) = true ∧
    decodes [0b11010000#8, 0x9C#8] (.bne 0x9C#8) = true ∧
    decodes [0b00110000#8, 0x9C#8] (.bmi 0x9C#8) = true ∧
    decodes [0b00010000#8, 0x9C#8] (.bpl 0x9C#8) = true ∧
    decodes [0b01010000#8, 0x9C#8] (.bvc 0x9C#8) = true ∧
    decodes [0b01110000#8, 0x9C#8] (.bvs 0x9C#8) = true := by
  decide

theorem test_decode_jump_call :
    decodes [0b01001100#8, 0x34#8, 0xA7#8] (.jmp (.abs 0xA734#16)) = true ∧
    decodes [0b01101100#8, 0x34#8, 0xA7#8] (.jmp (.ind 0xA734#16)) = true ∧
    decodes [0b00100000#8, 0x34#8, 0xA7#8] (.jsr 0xA734#16) = true ∧
    decodes [0b01100000#8] .rts = true ∧
    decodes [0b01000000#8] .rti = true := by
  decide

theorem test_decode_stack :
    decodes [0b01001000#8] .pha = true ∧
    decodes [0b00001000#8] .php = true ∧
    decodes [0b01101000#8] .pla = true ∧
    decodes [0b00101000#8] .plp = true := by
  decide

theorem test_decode_flags :
    decodes [0b00011000#8] .clc = true ∧
    decodes [0b00111000#8] .sec = true ∧
    decodes [0b11011000#8] .cld = true ∧
    decodes [0b11111000#8] .sed = true ∧
    decodes [0b01011000#8] .cli = true ∧
    decodes [0b01111000#8] .sei = true ∧
    decodes [0b10111000#8] .clv = true := by
  decide

theorem test_decode_transfers :
    decodes [0b10101010#8] .tax = true ∧
    decodes [0b10101000#8] .tay = true ∧
    decodes [0b10001010#8] .txa = true ∧
    decodes [0b10011000#8] .tya = true ∧
    decodes [0b10111010#8] .tsx = true ∧
    decodes [0b10011010#8] .txs = true := by
  decide

theorem test_decode_bit_control :
    decodes [0b00100100#8, 0x9C#8] (.bit (.zp 0x9C#8)) = true ∧
    decodes [0b00101100#8, 0x34#8, 0xA7#8] (.bit (.abs 0xA734#16)) = true ∧
    decodes [0b11101010#8] .nop = true ∧
    decodes [0b00000000#8] .brk = true := by
  decide

theorem test_decode_undefined :
    decodes [0b00000010#8] (.undefined 0x02#8) = true ∧ decodes [0b10000000#8] (.undefined 0x80#8) = true ∧
    decodes [0b11111111#8] (.undefined 0xFF#8) = true := by
  decide

/-- A byte list that ends inside an instruction is refused by name. -/
theorem test_decode_refuses_a_missing_operand :
    (match decode [0xAD#8, 0x34#8] with | .error e => decide (e = .missingOperand 0xAD#8) | .ok _ => false) = true ∧
    (match decode [] with | .error e => decide (e = .noOpcode) | .ok _ => false) = true := by
  decide

/-- The host's word form: bit 0 is the least significant bit of the first byte. -/
theorem test_table_word :
    decodeTableWord 24 0x1234BD = some (.lda (.abx 0x1234#16)) ∧ decodeTableWord 8 0xEA = some .nop ∧
    decodeTableWord 8 0x1234BD = some (.lda (.abx 0x0000#16)) ∧ decodeTableWord 8 0xFF = some (.undefined 0xFF#8) := by
  decide

/-! ## One step -/

/-- The start state of 95_test_vectors.md: P = 0x24, SP = 0xFD, everything else 0, and the listed bytes in memory. -/
def start (pc : Addr) (cells : List (Addr × Byte)) : State :=
  { State.reset with pc := pc, p := 0x24#8, sp := 0xFD#8, mem := Memory.ofCells cells }

/-- A check on the state one step leaves. -/
def after (s : State) (check : State → Bool) : Bool :=
  match step s with
  | .next t => check t
  | _ => false

/-- 95_test_vectors.md W4. -/
theorem test_lda_zp_x_wraps : after ({ start 0x8000#16 [(0x8000#16, 0xB5#8), (0x8001#16, 0xFF#8), (0x00FE#16, 0x99#8), (0x01FE#16, 0x11#8)] with x := 0xFF#8 })
    (fun t => t.a = 0x99#8 ∧ t.p = 0xA4#8 ∧ t.outcome = .ok 4) = true := by
  decide

/-- 95_test_vectors.md addressing modes, `B1 FF`. -/
theorem test_lda_izy_pointer_wraps_and_crosses : after ({ start 0x8000#16 [(0x8000#16, 0xB1#8), (0x8001#16, 0xFF#8), (0x00FF#16, 0xFF#8), (0x0000#16, 0x12#8), (0x0100#16, 0x77#8), (0x1300#16, 0x5A#8)] with y := 0x01#8 })
    (fun t => t.a = 0x5A#8 ∧ t.pc = 0x8002#16 ∧ t.outcome = .ok 6) = true := by
  decide

/-- 95_test_vectors.md addressing modes, `BE FF 00`. -/
theorem test_ldx_abs_y_crosses : after ({ start 0x8000#16 [(0x8000#16, 0xBE#8), (0x8001#16, 0xFF#8), (0x8002#16, 0x00#8), (0x0100#16, 0x42#8)] with y := 0x01#8 })
    (fun t => t.x = 0x42#8 ∧ t.outcome = .ok 5) = true := by
  decide

/-- R83, example. -/
theorem test_ldy_abs_x_crosses : after ({ start 0x8000#16 [(0x8000#16, 0xBC#8), (0x8001#16, 0xFF#8), (0x8002#16, 0x02#8), (0x0300#16, 0x05#8)] with x := 0x01#8 })
    (fun t => t.y = 0x05#8 ∧ t.p = 0x24#8 ∧ t.outcome = .ok 5) = true := by
  decide

/-- 95_test_vectors.md addressing modes, `9D FF 12`. -/
theorem test_sta_abs_x_no_penalty : after ({ start 0x8000#16 [(0x8000#16, 0x9D#8), (0x8001#16, 0xFF#8), (0x8002#16, 0x12#8)] with x := 0x01#8, a := 0x42#8 })
    (fun t => t.read 0x1300#16 = 0x42#8 ∧ t.p = 0x24#8 ∧ t.outcome = .ok 5) = true := by
  decide

/-- R85, example. -/
theorem test_stx_zp_y_wraps : after ({ start 0x8000#16 [(0x8000#16, 0x96#8), (0x8001#16, 0xFF#8)] with x := 0x07#8, y := 0x01#8 })
    (fun t => t.read 0x0000#16 = 0x07#8 ∧ t.outcome = .ok 4) = true := by
  decide

/-- R86, example. -/
theorem test_sty_zp : after ({ start 0x8000#16 [(0x8000#16, 0x84#8), (0x8001#16, 0x10#8)] with y := 0x99#8 })
    (fun t => t.read 0x0010#16 = 0x99#8 ∧ t.p = 0x24#8 ∧ t.outcome = .ok 3) = true := by
  decide

/-- 95_test_vectors.md `ADC 7F 01 0`. -/
theorem test_adc_overflow : after ({ start 0x8000#16 [(0x8000#16, 0x69#8), (0x8001#16, 0x01#8)] with a := 0x7F#8 })
    (fun t => t.a = 0x80#8 ∧ t.p = 0xE4#8 ∧ t.outcome = .ok 2) = true := by
  decide

/-- 95_test_vectors.md `ADC 50 FF 1` (C1). -/
theorem test_adc_carry_where_sum_equals_a : after ({ start 0x8000#16 [(0x8000#16, 0x69#8), (0x8001#16, 0xFF#8)] with a := 0x50#8, p := 0x25#8 })
    (fun t => t.a = 0x50#8 ∧ t.p = 0x25#8) = true := by
  decide

/-- 95_test_vectors.md `SBC 80 01 1`. -/
theorem test_sbc_overflow : after ({ start 0x8000#16 [(0x8000#16, 0xE9#8), (0x8001#16, 0x01#8)] with a := 0x80#8, p := 0x25#8 })
    (fun t => t.a = 0x7F#8 ∧ t.p = 0x65#8 ∧ t.outcome = .ok 2) = true := by
  decide

/-- 95_test_vectors.md `SBC 40 40 0`. -/
theorem test_sbc_borrow_in : after ({ start 0x8000#16 [(0x8000#16, 0xE9#8), (0x8001#16, 0x40#8)] with a := 0x40#8 })
    (fun t => t.a = 0xFF#8 ∧ t.p = 0xA4#8) = true := by
  decide

/-- 95_test_vectors.md `AND #$3C`. -/
theorem test_and_imm : after ({ start 0x8000#16 [(0x8000#16, 0x29#8), (0x8001#16, 0x3C#8)] with a := 0xF0#8 })
    (fun t => t.a = 0x30#8 ∧ t.p = 0x24#8) = true := by
  decide

/-- 95_test_vectors.md `ORA #$80`. -/
theorem test_ora_imm : after ({ start 0x8000#16 [(0x8000#16, 0x09#8), (0x8001#16, 0x80#8)] with a := 0x0F#8 })
    (fun t => t.a = 0x8F#8 ∧ t.p = 0xA4#8) = true := by
  decide

/-- 95_test_vectors.md `EOR #$FF`. -/
theorem test_eor_imm : after ({ start 0x8000#16 [(0x8000#16, 0x49#8), (0x8001#16, 0xFF#8)] with a := 0xFF#8 })
    (fun t => t.a = 0x00#8 ∧ t.p = 0x26#8) = true := by
  decide

/-- 95_test_vectors.md `ASL A`. -/
theorem test_asl_acc : after ({ start 0x8000#16 [(0x8000#16, 0x0A#8)] with a := 0x80#8 })
    (fun t => t.a = 0x00#8 ∧ t.p = 0x27#8 ∧ t.outcome = .ok 2) = true := by
  decide

/-- 95_test_vectors.md `1E FF 12`. -/
theorem test_asl_abs_x_no_penalty : after ({ start 0x8000#16 [(0x8000#16, 0x1E#8), (0x8001#16, 0xFF#8), (0x8002#16, 0x12#8), (0x1300#16, 0x81#8)] with x := 0x01#8, a := 0x33#8 })
    (fun t => t.read 0x1300#16 = 0x02#8 ∧ t.a = 0x33#8 ∧ t.p = 0x25#8 ∧ t.outcome = .ok 7) = true := by
  decide

/-- R94, example. -/
theorem test_lsr_zp : after (start 0x8000#16 [(0x8000#16, 0x46#8), (0x8001#16, 0x10#8), (0x0010#16, 0x02#8)])
    (fun t => t.read 0x0010#16 = 0x01#8 ∧ t.p = 0x24#8 ∧ t.outcome = .ok 5) = true := by
  decide

/-- 95_test_vectors.md `ROL A`, 55 with C. -/
theorem test_rol_carry_in : after ({ start 0x8000#16 [(0x8000#16, 0x2A#8)] with a := 0x55#8, p := 0x25#8 })
    (fun t => t.a = 0xAB#8 ∧ t.p = 0xA4#8) = true := by
  decide

/-- 95_test_vectors.md `ROR A`, 55 with C. -/
theorem test_ror_carry_in : after ({ start 0x8000#16 [(0x8000#16, 0x6A#8)] with a := 0x55#8, p := 0x25#8 })
    (fun t => t.a = 0xAA#8 ∧ t.p = 0xA5#8) = true := by
  decide

/-- 95_test_vectors.md `CMP 01 81`. -/
theorem test_cmp_unsigned_carry_signed_n : after ({ start 0x8000#16 [(0x8000#16, 0xC9#8), (0x8001#16, 0x81#8)] with a := 0x01#8 })
    (fun t => t.a = 0x01#8 ∧ t.p = 0xA4#8 ∧ t.outcome = .ok 2) = true := by
  decide

/-- 95_test_vectors.md addressing modes, `DD F0 FF`. -/
theorem test_cmp_abs_x_wraps_and_crosses : after ({ start 0x8000#16 [(0x8000#16, 0xDD#8), (0x8001#16, 0xF0#8), (0x8002#16, 0xFF#8), (0x0000#16, 0x05#8)] with x := 0x10#8, a := 0x05#8 })
    (fun t => t.p = 0x27#8 ∧ t.outcome = .ok 5) = true := by
  decide

/-- R99, example. -/
theorem test_cpx_less : after ({ start 0x8000#16 [(0x8000#16, 0xE0#8), (0x8001#16, 0x0A#8)] with x := 0x05#8 })
    (fun t => t.p = 0xA4#8) = true := by
  decide

/-- R100, example. -/
theorem test_cpy_equal : after ({ start 0x8000#16 [(0x8000#16, 0xC0#8), (0x8001#16, 0xFF#8)] with y := 0xFF#8 })
    (fun t => t.p = 0x27#8) = true := by
  decide

/-- 95_test_vectors.md `INC $10`. -/
theorem test_inc_keeps_carry : after ({ start 0x8000#16 [(0x8000#16, 0xE6#8), (0x8001#16, 0x10#8), (0x0010#16, 0xFF#8)] with p := 0x25#8 })
    (fun t => t.read 0x0010#16 = 0x00#8 ∧ t.p = 0x27#8 ∧ t.outcome = .ok 5) = true := by
  decide

/-- 95_test_vectors.md `DEC $10`. -/
theorem test_dec_wraps : after ({ start 0x8000#16 [(0x8000#16, 0xC6#8), (0x8001#16, 0x10#8)] with p := 0x25#8 })
    (fun t => t.read 0x0010#16 = 0xFF#8 ∧ t.p = 0xA5#8 ∧ t.outcome = .ok 5) = true := by
  decide

/-- 95_test_vectors.md `INX`. -/
theorem test_inx_wraps : after ({ start 0x8000#16 [(0x8000#16, 0xE8#8)] with x := 0xFF#8, p := 0x25#8 })
    (fun t => t.x = 0x00#8 ∧ t.p = 0x27#8 ∧ t.outcome = .ok 2) = true := by
  decide

/-- 95_test_vectors.md `INY`. -/
theorem test_iny_sign : after ({ start 0x8000#16 [(0x8000#16, 0xC8#8)] with y := 0x7F#8, p := 0x25#8 })
    (fun t => t.y = 0x80#8 ∧ t.p = 0xA5#8) = true := by
  decide

/-- 95_test_vectors.md `DEX`. -/
theorem test_dex_wraps : after ({ start 0x8000#16 [(0x8000#16, 0xCA#8)] with p := 0x25#8 })
    (fun t => t.x = 0xFF#8 ∧ t.p = 0xA5#8) = true := by
  decide

/-- 95_test_vectors.md `DEY`. -/
theorem test_dey_zero : after ({ start 0x8000#16 [(0x8000#16, 0x88#8)] with y := 0x01#8, p := 0x25#8 })
    (fun t => t.y = 0x00#8 ∧ t.p = 0x27#8) = true := by
  decide

/-- 95_test_vectors.md branches, `90 E0`. -/
theorem test_bcc_wraps_below_zero : after (start 0x0010#16 [(0x0010#16, 0x90#8), (0x0011#16, 0xE0#8)])
    (fun t => t.pc = 0xFFF2#16 ∧ t.outcome = .ok 4) = true := by
  decide

/-- R109, example. -/
theorem test_bcs_not_taken : after (start 0x0200#16 [(0x0200#16, 0xB0#8), (0x0201#16, 0x10#8)])
    (fun t => t.pc = 0x0202#16 ∧ t.outcome = .ok 2) = true := by
  decide

/-- R110, example. -/
theorem test_beq_other_page : after ({ start 0x0200#16 [(0x0200#16, 0xF0#8), (0x0201#16, 0x80#8)] with p := 0x26#8 })
    (fun t => t.pc = 0x0182#16 ∧ t.outcome = .ok 4) = true := by
  decide

/-- 95_test_vectors.md branches, `D0 FE`. -/
theorem test_bne_to_itself : after (start 0x0300#16 [(0x0300#16, 0xD0#8), (0x0301#16, 0xFE#8)])
    (fun t => t.pc = 0x0300#16 ∧ t.outcome = .ok 3) = true := by
  decide

/-- R112, example. -/
theorem test_bmi_page_after_the_branch : after ({ start 0x02F0#16 [(0x02F0#16, 0x30#8), (0x02F1#16, 0x7F#8)] with p := 0xA4#8 })
    (fun t => t.pc = 0x0371#16 ∧ t.outcome = .ok 4) = true := by
  decide

/-- 95_test_vectors.md branches, `10 7F`. -/
theorem test_bpl_wraps_above_ffff : after (start 0xFFF0#16 [(0xFFF0#16, 0x10#8), (0xFFF1#16, 0x7F#8)])
    (fun t => t.pc = 0x0071#16 ∧ t.outcome = .ok 4) = true := by
  decide

/-- R114, example. -/
theorem test_bvc_taken : after (start 0x0300#16 [(0x0300#16, 0x50#8), (0x0301#16, 0x02#8)])
    (fun t => t.pc = 0x0304#16 ∧ t.outcome = .ok 3) = true := by
  decide

/-- R115, example. -/
theorem test_bvs_not_taken : after (start 0x0300#16 [(0x0300#16, 0x70#8), (0x0301#16, 0x02#8)])
    (fun t => t.pc = 0x0302#16 ∧ t.outcome = .ok 2) = true := by
  decide

/-- 95_test_vectors.md `6C FF 10`. -/
theorem test_jmp_indirect_quirk : after (start 0x0600#16 [(0x0600#16, 0x6C#8), (0x0601#16, 0xFF#8), (0x0602#16, 0x10#8), (0x10FF#16, 0x10#8), (0x1000#16, 0x06#8), (0x1100#16, 0x07#8)])
    (fun t => t.pc = 0x0610#16 ∧ t.outcome = .ok 5) = true := by
  decide

/-- 95_test_vectors.md stack, `20 00 04`. -/
theorem test_jsr_wraps_the_stack : after ({ start 0x0300#16 [(0x0300#16, 0x20#8), (0x0301#16, 0x00#8), (0x0302#16, 0x04#8)] with sp := 0x00#8 })
    (fun t => t.read 0x0100#16 = 0x03#8 ∧ t.read 0x01FF#16 = 0x02#8 ∧ t.sp = 0xFE#8 ∧ t.pc = 0x0400#16 ∧ t.outcome = .ok 6) = true := by
  decide

/-- R118, example: after the JSR of W3. -/
theorem test_rts : after ({ start 0x1234#16 [(0x1234#16, 0x60#8), (0x01FD#16, 0x80#8), (0x01FC#16, 0x02#8)] with sp := 0xFB#8 })
    (fun t => t.pc = 0x8003#16 ∧ t.sp = 0xFD#8 ∧ t.outcome = .ok 6) = true := by
  decide

/-- R119, example. -/
theorem test_rti : after ({ start 0x1234#16 [(0x1234#16, 0x40#8), (0x01FB#16, 0xC3#8), (0x01FC#16, 0x00#8), (0x01FD#16, 0x90#8)] with sp := 0xFA#8 })
    (fun t => t.p = 0xE3#8 ∧ t.pc = 0x9000#16 ∧ t.sp = 0xFD#8 ∧ t.outcome = .ok 6) = true := by
  decide

/-- 95_test_vectors.md stack, `48`. -/
theorem test_pha_wraps : after ({ start 0x0300#16 [(0x0300#16, 0x48#8)] with sp := 0x00#8, a := 0x5A#8 })
    (fun t => t.read 0x0100#16 = 0x5A#8 ∧ t.sp = 0xFF#8 ∧ t.outcome = .ok 3) = true := by
  decide

/-- 95_test_vectors.md stack, `08`. -/
theorem test_php_sets_b_in_the_byte_only : after (start 0x0300#16 [(0x0300#16, 0x08#8)])
    (fun t => t.read 0x01FD#16 = 0x34#8 ∧ t.sp = 0xFC#8 ∧ t.p = 0x24#8 ∧ t.outcome = .ok 3) = true := by
  decide

/-- 95_test_vectors.md stack, `68`. -/
theorem test_pla_wraps : after ({ start 0x0300#16 [(0x0300#16, 0x68#8)] with sp := 0xFF#8, a := 0x11#8 })
    (fun t => t.a = 0x00#8 ∧ t.p = 0x26#8 ∧ t.sp = 0x00#8 ∧ t.outcome = .ok 4) = true := by
  decide

/-- 95_test_vectors.md stack, `28`. -/
theorem test_plp_forces_bit_5 : after ({ start 0x0300#16 [(0x0300#16, 0x28#8)] with sp := 0xFC#8 })
    (fun t => t.p = 0x20#8 ∧ t.sp = 0xFD#8 ∧ t.outcome = .ok 4) = true := by
  decide

/-- R124, example. -/
theorem test_clc : after ({ start 0x0200#16 [(0x0200#16, 0x18#8)] with p := 0x25#8 })
    (fun t => t.p = 0x24#8 ∧ t.outcome = .ok 2) = true := by
  decide

/-- R125, example. -/
theorem test_sec : after ({ start 0x0200#16 [(0x0200#16, 0x38#8)] with p := 0x24#8 })
    (fun t => t.p = 0x25#8 ∧ t.outcome = .ok 2) = true := by
  decide

/-- R126, example. -/
theorem test_cld : after ({ start 0x0200#16 [(0x0200#16, 0xD8#8)] with p := 0x2C#8 })
    (fun t => t.p = 0x24#8 ∧ t.outcome = .ok 2) = true := by
  decide

/-- R127, example. -/
theorem test_sed : after ({ start 0x0200#16 [(0x0200#16, 0xF8#8)] with p := 0x24#8 })
    (fun t => t.p = 0x2C#8 ∧ t.outcome = .ok 2) = true := by
  decide

/-- R128, example. -/
theorem test_cli : after ({ start 0x0200#16 [(0x0200#16, 0x58#8)] with p := 0x24#8 })
    (fun t => t.p = 0x20#8 ∧ t.outcome = .ok 2) = true := by
  decide

/-- R129, example. -/
theorem test_sei : after ({ start 0x0200#16 [(0x0200#16, 0x78#8)] with p := 0x20#8 })
    (fun t => t.p = 0x24#8 ∧ t.outcome = .ok 2) = true := by
  decide

/-- R130, example. -/
theorem test_clv : after ({ start 0x0200#16 [(0x0200#16, 0xB8#8)] with p := 0x64#8 })
    (fun t => t.p = 0x24#8 ∧ t.outcome = .ok 2) = true := by
  decide

/-- R131, example. -/
theorem test_tax : after ({ start 0x0200#16 [(0x0200#16, 0xAA#8)] with a := 0x80#8 })
    (fun t => t.x = 0x80#8 ∧ t.p = 0xA4#8) = true := by
  decide

/-- R132, example. -/
theorem test_tay : after ({ start 0x0200#16 [(0x0200#16, 0xA8#8)] with y := 0x55#8 })
    (fun t => t.y = 0x00#8 ∧ t.p = 0x26#8) = true := by
  decide

/-- R133, example. -/
theorem test_txa : after ({ start 0x0200#16 [(0x0200#16, 0x8A#8)] with x := 0x01#8 })
    (fun t => t.a = 0x01#8 ∧ t.p = 0x24#8) = true := by
  decide

/-- R134, example. -/
theorem test_tya : after ({ start 0x0200#16 [(0x0200#16, 0x98#8)] with y := 0xFE#8 })
    (fun t => t.a = 0xFE#8 ∧ t.p = 0xA4#8) = true := by
  decide

/-- R135, example. -/
theorem test_tsx : after ({ start 0x0200#16 [(0x0200#16, 0xBA#8)] with sp := 0xFB#8 })
    (fun t => t.x = 0xFB#8 ∧ t.p = 0xA4#8) = true := by
  decide

/-- 95_test_vectors.md flags, `9A`. -/
theorem test_txs_keeps_flags : after (start 0x0200#16 [(0x0200#16, 0x9A#8)])
    (fun t => t.sp = 0x00#8 ∧ t.p = 0x24#8) = true := by
  decide

/-- 95_test_vectors.md BIT. -/
theorem test_bit_flags_from_the_operand : after ({ start 0x0200#16 [(0x0200#16, 0x24#8), (0x0201#16, 0x10#8), (0x0010#16, 0xC0#8)] with p := 0x25#8 })
    (fun t => t.a = 0x00#8 ∧ t.p = 0xE7#8 ∧ t.outcome = .ok 3) = true := by
  decide

/-- R138, example. -/
theorem test_nop : after (start 0x0200#16 [(0x0200#16, 0xEA#8)])
    (fun t => t.pc = 0x0201#16 ∧ t.p = 0x24#8 ∧ t.outcome = .ok 2) = true := by
  decide

/-- 95_test_vectors.md control. -/
theorem test_brk_at_the_top : after (start 0xFFFF#16 [(0xFFFF#16, 0x00#8)])
    (fun t => t.pc = 0x0000#16 ∧ t.p = 0x34#8 ∧ t.sp = 0xFD#8 ∧ t.outcome = .ok 7) = true := by
  decide

/-- 95_test_vectors.md control, `02`. -/
theorem test_undefined_byte : after (start 0x0615#16 [(0x0615#16, 0x02#8)])
    (fun t => t.illegalSeen = true ∧ t.outcome = .illegal 0x02#8 0x0615#16 ∧ t.reportedCycles = some 0 ∧ t.pc = 0x0616#16 ∧ t.p = 0x24#8 ∧ t.sp = 0xFD#8) = true := by
  decide

/-- 95_test_vectors.md control, `FF` at FFFF. -/
theorem test_undefined_byte_at_the_top : after (start 0xFFFF#16 [(0xFFFF#16, 0xFF#8)])
    (fun t => t.illegalSeen = true ∧ t.outcome = .illegal 0xFF#8 0xFFFF#16 ∧ t.pc = 0x0000#16) = true := by
  decide

/-- R72, corner case: an opcode at 0xFFFE takes its high operand byte from 0x0000. -/
theorem test_operand_bytes_wrap : after (start 0xFFFE#16 [(0xFFFE#16, 0xAE#8), (0xFFFF#16, 0x34#8), (0x0000#16, 0x12#8), (0x1234#16, 0x7E#8)])
    (fun t => t.x = 0x7E#8 ∧ t.pc = 0x0001#16 ∧ t.outcome = .ok 4) = true := by
  decide

/-- A store into the instruction's own bytes shows from the next step (R50): the byte stored is at EA, and PC is behind. -/
theorem test_self_modifying_store :
    after ({ start 0x0200#16 [(0x0200#16, 0x8D#8), (0x0201#16, 0x01#8), (0x0202#16, 0x02#8)] with a := 0x77#8 })
      (fun t => t.read 0x0201#16 = 0x77#8 ∧ t.pc = 0x0203#16) = true := by
  decide

/-- A defined word placed with the host's helper is the first instruction after reset. -/
theorem test_with_fetch_word :
    after (State.reset.withFetchWord 16 0x5AA0) (fun t => t.y = 0x5A#8 ∧ t.pc = 0x0002#16 ∧ t.outcome = .ok 2) = true := by
  decide

/-! ## Memory: the canonical form is equality -/

theorem test_writing_the_unlisted_byte_removes_the_entry :
    Memory.write (Memory.write [] 0x0010#16 0x5A#8) 0x0010#16 0x00#8 = [] := by
  decide

theorem test_writes_in_either_order_are_one_memory :
    Memory.write (Memory.write [] 0x0020#16 0x01#8) 0x0010#16 0x02#8 =
      Memory.write (Memory.write [] 0x0010#16 0x02#8) 0x0020#16 0x01#8 := by
  decide

/-! ## The host interface -/

def params (p : Byte) : LaunchParams :=
  { initA := 0x01#8, initX := 0x02#8, initY := 0x03#8, initSP := 0xFD#8, initP := p, initPC := 0x8000#16,
    initMem := [(0x8000#16, 0xEA#8)] }

theorem test_launch_refuses_bit_5_clear :
    (match launch (params 0x04#8) with | .refused r => decide (r = .launchBit5Clear) | _ => false) = true := by
  decide

/-- R156's order: bind, place, seed PC, step. -/
theorem test_host_session_runs_a_placed_program :
    (match HostSession.start.act (.connect []) with
     | .next u => match u.act (.place 0x0300#16 0xE8#8) with
       | .next u => match u.act (.seed .pc 0x0300#16) with
         | .next u => match u.act .step with
           | .next (.running t) => decide (t.x = 0x01#8 ∧ t.pc = 0x0301#16 ∧ t.hostRead .p = 0x0020#16)
           | _ => false
         | _ => false
       | _ => false
     | _ => false) = true := by
  decide

theorem test_seeding_p_with_bit_5_clear_is_refused :
    (match HostSession.start.act (.seed .p 0x0004#16) with
     | .refused r => decide (r = .launchBit5Clear)
     | _ => false) = true := by
  decide

/-! ## Witnesses: the hypotheses of the statements are met -/

theorem witness_push_pull_length : ([0x01#8, 0x02#8, 0x03#8] : List Byte).length ≤ 256 := by decide

theorem witness_push_pull_length_256 : (List.replicate 256 (0x5A#8 : Byte)).length ≤ 256 := List.length_replicate.le

theorem witness_distinct_flags : Flag.n ≠ Flag.z := by decide

theorem witness_step_decodes :
    ∃ rest, decode (bytesAtPc (start 0x0200#16 [(0x0200#16, 0xA9#8), (0x0201#16, 0x05#8)])) =
      .ok (.lda (.imm 0x05#8), rest) := ⟨[0x00#8], rfl⟩

theorem witness_encode_wf : (Instr.lda (.izy 0xFF#8)).wf = true ∧ (Instr.undefined 0xFF#8).wf = true := by decide

theorem witness_decode_ok : decode [0x6C#8, 0xFF#8, 0x10#8, 0xEA#8] = .ok (.jmp (.ind 0x10FF#16), [0xEA#8]) := rfl

theorem witness_one_opcode_two_operands :
    decode [0xA5#8, 0x10#8] = .ok (.lda (.zp 0x10#8), []) ∧
    decode [0xA5#8, 0x20#8, 0xEA#8] = .ok (.lda (.zp 0x20#8), [0xEA#8]) ∧ (0x02#8 : Byte) ∈ undefinedOpcodes :=
  ⟨rfl, rfl, by decide⟩

theorem witness_defined_instruction : ∀ op, Instr.bne 0xFE#8 ≠ .undefined op := by simp

theorem witness_table_word : decodeTableWord 16 0x5AA9 = some (.lda (.imm 0x5A#8)) := by decide

theorem witness_canonical_memory :
    ∃ f : Addr → Byte, Memory.wf [(0x0010, 0x5A#8)] ∧ ∀ a, Memory.read [(0x0010, 0x5A#8)] a = f a :=
  ⟨Memory.read [(0x0010, 0x5A#8)], by decide, fun _ => rfl⟩

theorem witness_memory_mode : (Operand.izx 0x00#8).mode ∈ [Mode.zp, .zpx, .zpy, .abs, .abx, .aby, .izx, .izy] := by decide

theorem witness_crossed : (resolve (.abx 0x12FF#16) { State.reset with x := 0x01#8 }).crossed = true := by decide

theorem witness_penalty :
    (Instr.lda (.abx 0x12FF#16)).wf = true ∧ (Instr.lda (.abx 0x12FF#16)).cost.pagePenalty = true := by decide

theorem witness_listed_branch : Instr.bne 0xFE#8 ∈ [Instr.bcc 0xFE#8, .bcs 0xFE#8, .beq 0xFE#8, .bne 0xFE#8] := by decide

theorem witness_undefined_byte : (start 0x0615#16 [(0x0615#16, 0x02#8)]).read 0x0615#16 ∈ undefinedOpcodes := by decide

theorem witness_defined_byte : (start 0x0615#16 [(0x0615#16, 0xEA#8)]).read 0x0615#16 ∉ undefinedOpcodes := by decide

theorem witness_inv_steps : State.reset.Inv ∧ ∃ t, step State.reset = .next t :=
  ⟨⟨rfl, Memory.wf_nil⟩, ⟨_, rfl⟩⟩

/-- One instruction, one state: it completes, and a flag, a register and an address lie outside what it may write. -/
theorem witness_exec_next :
    (∃ t, exec (.sta (.zp 0x10#8)) State.reset = .next t) ∧ Flag.c ∉ writtenFlags (.sta (.zp 0x10#8)) ∧
    Reg.x ∉ writtenRegs (.sta (.zp 0x10#8)) ∧ 0x0011#16 ∉ storedBytes (.sta (.zp 0x10#8)) State.reset :=
  ⟨⟨_, rfl⟩, by decide, by decide, by decide⟩

/-- Each way PC can move: a branch, RTS, RTI, JMP, JSR. -/
theorem witness_pc_moves :
    (∃ t, exec (.bcc 0x10#8) State.reset = .next t ∧ t.pc ≠ State.reset.pc) ∧
    (∃ t, exec .rts State.reset = .next t ∧ t.pc ≠ State.reset.pc) ∧
    (∃ t, exec .rti { State.reset with pc := 0x0300#16 } = .next t ∧ t.pc ≠ 0x0300#16) ∧
    (∃ t, exec (.jmp (.abs 0x1234#16)) State.reset = .next t ∧ t.pc ≠ State.reset.pc) ∧
    ∃ t, exec (.jsr 0x1234#16) State.reset = .next t ∧ t.pc ≠ State.reset.pc :=
  ⟨⟨_, rfl, by decide⟩, ⟨_, rfl, by decide⟩, ⟨_, rfl, by decide⟩, ⟨_, rfl, by decide⟩, ⟨_, rfl, by decide⟩⟩

theorem witness_launch :
    (params 0x24#8).initP.getLsbD 5 = true ∧ (params 0x04#8).initP.getLsbD 5 = false ∧
    (0x8000#16, 0xEA#8) ∈ (params 0x24#8).initMem ∧
    ∀ w, (0x8000#16, w) ∈ (params 0x24#8).initMem → w = 0xEA#8 := by
  refine ⟨by decide, by decide, by decide, fun w h => ?_⟩
  simpa [params] using h

theorem witness_host_move : HostMove.seed .a 0x0005#16 ≠ .step ∧ HostMove.connect [] ≠ .step := by decide

end Sys2Proof.Tests
end

/-! ## The status register (10_state.md R21, R27): the order of flag writes, and what `setNZ` writes and keeps -/

namespace Sys2Proof.Machine

/-- Each bit of P is written by at most one of two different flags, so P does not depend on the order of the writes. -/
theorem State.p_setFlag_comm (s : State) {f g : Flag} (hfg : f ≠ g) (b c : Bool) :
    ((s.setFlag f b).setFlag g c).p = ((s.setFlag g c).setFlag f b).p := by
  have hbit : f.bit ≠ g.bit := by rwa [ne_eq, Flag.bit_eq]
  refine BitVec.eq_of_getLsbD_eq fun k hk => ?_
  simp only [State.getLsbD_setFlag _ _ _ k hk]
  by_cases hf : k = f.bit
  · simp [hf, hbit]
  · simp [hf]

theorem State.setFlag_comm (s : State) {f g : Flag} (hfg : f ≠ g) (b c : Bool) :
    (s.setFlag f b).setFlag g c = (s.setFlag g c).setFlag f b :=
  congrArg (fun p => { s with p := p }) (s.p_setFlag_comm hfg b c)

end Sys2Proof.Machine

namespace Sys2Proof.Machine.Claims

theorem setsNZ_setNZ (s : State) (v : Byte) : SetsNZ v (s.setNZ v) := by
  constructor
  · simp [State.flag_setNZ, beq_eq_decide, BitVec.toNat_eq]
  · simp [State.flag_setNZ, BitVec.msb_eq_getLsbD_last]

/-- `setNZ` writes no flag but Z and N, and nothing outside P. -/
theorem frame_setNZ (s : State) (v : Byte) : Frame [] [.n, .z] [] s (s.setNZ v) := by
  refine ⟨fun r _ => s.reg_setNZ r v, ⟨fun g hg => ?_, s.bit5_setNZ v⟩, fun a _ => s.read_setNZ a v,
    s.setNZ_illegalSeen v⟩
  obtain ⟨hn, hz⟩ : g ≠ .n ∧ g ≠ .z := by simpa using hg
  rw [State.flag_setNZ, if_neg hn, if_neg hz]

/-- Settles O5: `setNZ` by its flag and frame lemmas, the order of flag writes by the commuting bits of P. -/
theorem setNZWritesExactlyZAndN : Obligations.SetNZWritesExactlyZAndN :=
  ⟨fun s v => ⟨setsNZ_setNZ s v, frame_setNZ s v, s.setNZ_pc v, s.setNZ_outcome v⟩,
    fun s _ _ b c hfg => s.setFlag_comm hfg b c⟩

end Sys2Proof.Machine.Claims

/-! ## The stack (20_memory.md R42, R43): the slots by number, and what a push and a pull keep -/

namespace Sys2Proof.Machine

variable (s : State)

/-- A push moves SP and no other register (R42). -/
theorem State.reg_push {q : Reg} (hq : q ≠ .sp) (v : Byte) : (s.push v).reg q = s.reg q := by
  simp [State.push, State.reg_setReg, hq]

@[simp] theorem State.flag_push (g : Flag) (v : Byte) : (s.push v).flag g = s.flag g := by simp [State.flag]

@[simp] theorem State.bit5_push (v : Byte) : (s.push v).bit5 = s.bit5 := by simp [State.bit5]

/-- A pull moves SP and no other register (R43). -/
theorem State.reg_pull_snd {q : Reg} (hq : q ≠ .sp) : s.pull.2.reg q = s.reg q := by
  simp [State.pull, State.reg_setReg, hq]

@[simp] theorem State.flag_pull_snd (g : Flag) : s.pull.2.flag g = s.flag g := by simp [State.flag]

@[simp] theorem State.bit5_pull_snd : s.pull.2.bit5 = s.bit5 := by simp [State.bit5]

/-- The stack address as a number; `0x0100 + SP` never leaves page 1, so it does not wrap (R19). -/
theorem toNat_stackAddr (sp : Byte) : (stackAddr sp).toNat = 0x0100 + sp.toNat := by
  simp only [stackAddr, Config.stackBase, zext16]
  bv_omega

end Sys2Proof.Machine

namespace Sys2Proof.Machine.Claims

/-- The address `n` bytes up the stack is the one of SP advanced `n` times mod 256. -/
theorem stackAt_eq_stackAddr (sp : Byte) (n : Nat) : stackAt sp n = stackAddr (sp + BitVec.ofNat 8 n) := by
  apply BitVec.eq_of_toNat_eq
  simp only [stackAt, toNat_stackAddr, BitVec.toNat_add, BitVec.toNat_ofNat]
  omega

/-- The address `n` bytes down the stack is the one of SP moved back `n` times mod 256. -/
theorem stackBelow_eq_stackAddr (sp : Byte) {n : Nat} (hn : n ≤ 256) :
    stackBelow sp n = stackAddr (sp - BitVec.ofNat 8 n) := by
  apply BitVec.eq_of_toNat_eq
  simp only [stackBelow, toNat_stackAddr, BitVec.toNat_sub, BitVec.toNat_ofNat]
  omega

/-- A push stores at the slot SP designates itself. -/
@[simp] theorem stackBelow_zero (sp : Byte) : stackBelow sp 0 = stackAddr sp := by
  simp [stackBelow_eq_stackAddr]

/-- A push changes SP and the byte at the old SP, and nothing else of the frame (R42). -/
theorem frame_push (s : State) (v : Byte) : Frame [.sp] [] [stackAddr s.sp] s (s.push v) := by
  refine ⟨fun q hq => s.reg_push (by simpa using hq) v, ⟨fun g _ => s.flag_push g v, s.bit5_push v⟩,
    fun a ha => ?_, s.push_illegalSeen v⟩
  rw [State.read_push, if_neg (by simpa using ha)]

/-- A pull changes SP alone: the byte read is not erased (R43). -/
theorem frame_pull_snd (s : State) : Frame [.sp] [] [] s s.pull.2 :=
  ⟨fun q hq => s.reg_pull_snd (by simpa using hq), ⟨fun g _ => s.flag_pull_snd g, s.bit5_pull_snd⟩,
    fun a _ => s.read_pull_snd a, s.pull_snd_illegalSeen⟩

/-- Settles O2: the store by `read_push` at the slot of the old SP, what is kept by `frame_push`. -/
theorem pushStoresThenDecrements : Obligations.PushStoresThenDecrements := by
  intro s v
  have hsp : (s.push v).sp = BitVec.ofInt 8 (s.sp.toNat - 1) := by
    rw [State.push_sp]
    bv_omega
  rw [stackBelow_zero]
  exact ⟨by simp [State.read_push], hsp, hi_stackAddr s.sp, frame_push s v, s.push_pc v, s.push_outcome v⟩

/-- Settles O3: the byte by the slot above SP, what is kept by `frame_pull_snd`. -/
theorem pullIncrementsThenLoads : Obligations.PullIncrementsThenLoads := by
  intro s
  have hbyte : s.pull.1 = s.read (stackAt s.sp 1) := by
    rw [State.pull_fst, stackAt_eq_stackAddr]
    rfl
  have hsp : s.pull.2.sp = BitVec.ofNat 8 (s.sp.toNat + 1) := by simp [BitVec.ofNat_add]
  exact ⟨hbyte, hsp, frame_pull_snd s, s.pull_snd_pc, s.pull_snd_outcome⟩

end Sys2Proof.Machine.Claims

/-! ## The dispatch table (30_encoding.md R52, R56 to R58): what an entry builds from its operand bytes -/

namespace Sys2Proof

/-- The instruction a format builds; a format takes the byte, the word or neither, and ignores the rest (R52). -/
def Format.build : Format → Byte → Addr → Instr
  | .f1 i, _, _ => i
  | .f2 mk, b, _ => mk b
  | .f3 mk, _, w => mk w

/-- The operand bytes `Format.build` takes, in address order (R52, R55). -/
def Format.operandBytes : Format → Byte → Addr → List Byte
  | .f1 _, _, _ => []
  | .f2 _, b, _ => [b]
  | .f3 _, _, w => [lo w, hi w]

/-- The mode of what a format builds, read off at operand 0; `Entry.SoundAt` says that every operand gives it. -/
def Format.mode (f : Format) : Mode := (f.build 0 0).operand.mode

/-- Whatever the operand, the entry builds a table row whose bytes are `op` and that operand, and always in one mode. -/
def Entry.SoundAt (e : Entry) (op : Byte) : Prop :=
  ∀ b w, encode (e.format.build b w) = op :: e.format.operandBytes b w ∧ (e.format.build b w).wf = true ∧
    (e.format.build b w).operand.mode = e.format.mode

/-- Consecutive cells of the matrix, the first at opcode byte `n`: each defined one is sound at its own byte. -/
def SoundFrom : Nat → List (Option Entry) → Prop
  | _, [] => True
  | n, none :: cells => SoundFrom (n + 1) cells
  | n, some e :: cells => e.SoundAt (BitVec.ofNat 8 n) ∧ SoundFrom (n + 1) cells

theorem soundAt_of_getD {n k : Nat} {cells : List (Option Entry)} {e : Entry} (h : SoundFrom n cells)
    (he : cells.getD k none = some e) : e.SoundAt (BitVec.ofNat 8 (n + k)) := by
  induction cells generalizing n k with
  | nil => simp at he
  | cons c cells ih =>
    have htail : SoundFrom (n + 1) cells := by
      cases c with
      | none => exact h
      | some _ => exact h.2
    cases k with
    | zero =>
      obtain rfl : c = some e := by simpa using he
      exact h.1
    | succ k =>
      rw [Nat.add_comm k, ← Nat.add_assoc]
      exact ih htail (by simpa using he)

open Dispatch in
/-- The matrix of R57 row by row, at unknown operands: it agrees with the Encoding lists of R81 to R139. -/
theorem soundFrom_opcodeRows {n : Nat} (hn : n < 16) : SoundFrom (16 * n) (opcodeRows.getD n []) := by
  interval_cases n <;>
    simp [SoundFrom, opcodeRows, opcodeRow0, opcodeRow1, opcodeRow2, opcodeRow3, opcodeRow4, opcodeRow5, opcodeRow6,
      opcodeRow7, opcodeRow8, opcodeRow9, opcodeRowA, opcodeRowB, opcodeRowC, opcodeRowD, opcodeRowE, opcodeRowF,
      undef, f1, f2, f2p, f3, f3p, Entry.SoundAt, Format.build, Format.operandBytes, Format.mode, encode, Instr.opcode,
      Instr.operand, AluForm.operand, LdxForm.operand, LdyForm.operand, StaForm.operand, StxForm.operand,
      StyForm.operand, ShiftForm.operand, IncForm.operand, IndexCompareForm.operand, BitForm.operand, JmpForm.operand,
      Operand.bytes, Operand.mode, Instr.wf]

theorem dispatch_soundAt {op : Byte} {e : Entry} (h : dispatch op = some e) : e.SoundAt op := by
  have hsound := soundAt_of_getD (soundFrom_opcodeRows (n := op.toNat / 16) (by omega)) h
  rwa [Nat.div_add_mod, BitVec.ofNat_toNat, BitVec.setWidth_eq] at hsound

/-- R58: the cells without an entry are the listed bytes. -/
theorem dispatch_eq_none_iff (op : Byte) : dispatch op = none ↔ op ∈ undefinedOpcodes := by
  revert op
  decide

/-- R53: the encoding of an instruction is as long as its mode says. -/
theorem length_encode (i : Instr) : (encode i).length = i.length := by
  have hoperand : ∀ o : Operand, o.bytes.length + 1 = o.mode.length := fun o => by cases o <;> rfl
  exact hoperand i.operand

/-! ## The decoder (R52, R58, R59), through the entry of the opcode byte -/

theorem decode_of_undefined {op : Byte} (h : dispatch op = none) (bytes : List Byte) :
    decode (op :: bytes) = .ok (.undefined op, bytes) := by
  simp [decode, h]

/-- At a defined byte, decoding is building from the operand bytes at the head of the rest. -/
theorem decode_of_dispatch {op : Byte} {e : Entry} (h : dispatch op = some e) (bytes : List Byte) (i : Instr)
    (rest : List Byte) : decode (op :: bytes) = .ok (i, rest) ↔
      ∃ b w, i = e.format.build b w ∧ bytes = e.format.operandBytes b w ++ rest := by
  obtain ⟨f, base, p⟩ := e
  cases f with
  | f1 j => simp [decode, h, Format.build, Format.operandBytes, eq_comm]
  | f2 mk =>
    cases bytes with
    | nil => simp [decode, h, Format.operandBytes]
    | cons b bytes => simp [decode, h, Format.build, Format.operandBytes, eq_comm]
  | f3 mk =>
    match bytes with
    | [] => simp [decode, h, Format.operandBytes]
    | [l] => simp [decode, h, Format.operandBytes]
    | l :: h' :: bytes =>
      constructor
      · intro hd
        obtain ⟨rfl, rfl⟩ : mk (word l h') = i ∧ bytes = rest := by simpa [decode, h] using hd
        exact ⟨0, word l h', rfl, by simp [Format.operandBytes]⟩
      · rintro ⟨_, w, rfl, hbytes⟩
        obtain ⟨rfl, rfl, rfl⟩ : l = lo w ∧ h' = hi w ∧ bytes = rest := by
          simpa [Format.operandBytes] using hbytes
        simp [decode, h, Format.build]

/-- What decodes is a row of the table, and its encoding is what the decoder took. -/
theorem encode_of_decode {bytes : List Byte} {i : Instr} {rest : List Byte} (h : decode bytes = .ok (i, rest)) :
    i.wf = true ∧ encode i ++ rest = bytes := by
  cases bytes with
  | nil => simp [decode] at h
  | cons op bytes =>
    cases hop : dispatch op with
    | none =>
      obtain ⟨rfl, rfl⟩ : .undefined op = i ∧ bytes = rest := by simpa [decode_of_undefined hop] using h
      exact ⟨List.contains_iff_mem.2 ((dispatch_eq_none_iff op).1 hop), rfl⟩
    | some e =>
      obtain ⟨b, w, rfl, rfl⟩ := (decode_of_dispatch hop bytes i rest).1 h
      obtain ⟨hencode, hwf, -⟩ := dispatch_soundAt hop b w
      exact ⟨hwf, by rw [hencode, List.cons_append]⟩

theorem length_of_decode {bytes : List Byte} {i : Instr} {rest : List Byte} (h : decode bytes = .ok (i, rest)) :
    bytes.length = i.length + rest.length := by
  rw [← (encode_of_decode h).2, List.length_append, length_encode]

/-- The mode an opcode byte fixes: the one of its entry in `DISPATCH` (R59). -/
def opcodeMode (op : Byte) : Mode := (dispatch op).elim .imp (·.format.mode)

theorem mode_of_decode {op : Byte} {bytes : List Byte} {i : Instr} {rest : List Byte}
    (h : decode (op :: bytes) = .ok (i, rest)) : i.operand.mode = opcodeMode op := by
  cases hop : dispatch op with
  | none =>
    obtain ⟨rfl, -⟩ : .undefined op = i ∧ bytes = rest := by simpa [decode_of_undefined hop] using h
    simp [opcodeMode, hop, Instr.operand, Operand.mode]
  | some e =>
    obtain ⟨b, w, rfl, -⟩ := (decode_of_dispatch hop bytes i rest).1 h
    obtain ⟨-, -, hmode⟩ := dispatch_soundAt hop b w
    simp [opcodeMode, hop, hmode]

end Sys2Proof

/-! ## Fetch and step (30_encoding.md R54, R62, R64) -/

namespace Sys2Proof.Machine

open Claims

variable (s : State)

theorem fetchInstr_of_undefined (h : dispatch (s.read s.pc) = none) :
    fetchInstr s = (.undefined (s.read s.pc), s.jump (s.pc + 1)) := by
  simp [fetchInstr, h]

/-- At a defined byte the fetch builds from the bytes after PC, and moves PC behind them. -/
theorem fetchInstr_of_dispatch {e : Entry} (h : dispatch (s.read s.pc) = some e) :
    ∃ b w rest, (fetchInstr s).1 = e.format.build b w ∧
      [s.read (s.pc + 1), s.read (s.pc + 2)] = e.format.operandBytes b w ++ rest ∧
      (fetchInstr s).2.pc = s.pc + BitVec.ofNat 16 ((e.format.operandBytes b w).length + 1) := by
  obtain ⟨f, base, p⟩ := e
  cases f with
  | f1 i =>
    exact ⟨0, 0, [s.read (s.pc + 1), s.read (s.pc + 2)],
      by simp [fetchInstr, h, Format.build, Format.operandBytes]⟩
  | f2 mk =>
    exact ⟨s.read (s.pc + 1), 0, [s.read (s.pc + 2)],
      by simp [fetchInstr, h, Format.build, Format.operandBytes, BitVec.add_assoc]⟩
  | f3 mk =>
    exact ⟨0, word (s.read (s.pc + 1)) (s.read (s.pc + 2)), [],
      by simp [fetchInstr, h, Format.build, Format.operandBytes, BitVec.add_assoc]⟩

/-- The fetch decodes the bytes at PC (R54, R62). -/
theorem decode_bytesAtPc : ∃ rest, decode (bytesAtPc s) = .ok ((fetchInstr s).1, rest) := by
  cases hop : dispatch (s.read s.pc) with
  | none => exact ⟨_, by rw [fetchInstr_of_undefined s hop]; exact decode_of_undefined hop _⟩
  | some e =>
    obtain ⟨b, w, rest, hinstr, hbytes, -⟩ := fetchInstr_of_dispatch s hop
    exact ⟨rest, (decode_of_dispatch hop _ _ _).2 ⟨b, w, hinstr, hbytes⟩⟩

/-- The fetch leaves PC behind the whole instruction (R18). -/
theorem fetchInstr_snd_eq_jump : (fetchInstr s).2 = s.jump (s.pc + BitVec.ofNat 16 (fetchInstr s).1.length) := by
  rw [fetchInstr_snd]
  cases hop : dispatch (s.read s.pc) with
  | none => rw [fetchInstr_of_undefined s hop]; rfl
  | some e =>
    obtain ⟨b, w, rest, hinstr, -, hpc⟩ := fetchInstr_of_dispatch s hop
    obtain ⟨hencode, -⟩ := dispatch_soundAt hop b w
    rw [hpc, hinstr, ← length_encode, hencode, List.length_cons]

/-- A defined byte does not fetch as an undefined one. -/
theorem fetchInstr_ne_undefined (h : s.read s.pc ∉ undefinedOpcodes) (op : Byte) : (fetchInstr s).1 ≠ .undefined op := by
  intro hinstr
  obtain ⟨rest, hdecode⟩ := decode_bytesAtPc s
  obtain ⟨hwf, hencode⟩ := encode_of_decode hdecode
  rw [hinstr] at hwf hencode
  obtain ⟨rfl, -⟩ : op = s.read s.pc ∧ _ := List.cons.inj hencode
  exact h (List.contains_iff_mem.1 hwf)

/-- A branch ends in `finish`, taken or not (R107). -/
theorem branch_eq_finish (i : Instr) (d : Byte) (cond : Bool) :
    ∃ t crossed extra, branch i d cond s = .next (State.finish t i crossed extra) := by
  cases cond <;> exact ⟨_, _, _, rfl⟩

/-- Every defined instruction ends in `return Ok(Cycles(e, ctx, extra))` (R62). -/
theorem exec_eq_finish {i : Instr} (h : ∀ op, i ≠ .undefined op) :
    ∃ t crossed extra, exec i s = .next (State.finish t i crossed extra) := by
  cases i with
  | bcc d | bcs d | beq d | bne d | bmi d | bpl d | bvc d | bvs d => exact branch_eq_finish ..
  | undefined op => exact absurd rfl (h op)
  | _ => exact ⟨_, _, _, rfl⟩

end Sys2Proof.Machine

namespace Sys2Proof.Machine.Claims

/-- Settles O11: the mode by `mode_of_decode`, the length as the mode's and as the bytes taken. -/
theorem lengthFromOpcodeAlone : Obligations.LengthFromOpcodeAlone := by
  constructor
  · intro op xs ys i j r q hi hj
    have hmode : i.operand.mode = j.operand.mode := (mode_of_decode hi).trans (mode_of_decode hj).symm
    exact ⟨congrArg Mode.length hmode, hmode, length_of_decode hi⟩
  · intro op hop bytes
    exact decode_of_undefined ((dispatch_eq_none_iff op).2 hop) bytes

/-- Settles O6: `fetch8` by its definition, the instruction by `decode_bytesAtPc`, PC by `fetchInstr_snd_eq_jump`. -/
theorem fetchTakesBytesInAddressOrder : Obligations.FetchTakesBytesInAddressOrder := by
  intro s
  have hpc (n : Nat) : BitVec.ofNat 16 (s.pc.toNat + n) = s.pc + BitVec.ofNat 16 n := by simp [BitVec.ofNat_add]
  rw [hpc, hpc]
  exact ⟨rfl, decode_bytesAtPc s, fetchInstr_snd_eq_jump s⟩

/-- Settles O49: an undefined byte raises `Illegal` at its own address, every other instruction ends in `finish`. -/
theorem stepIsTotal : Obligations.StepIsTotal := by
  intro s
  rw [step_eq]
  by_cases hop : s.read s.pc ∈ undefinedOpcodes
  · rw [fetchInstr_of_undefined s ((dispatch_eq_none_iff _).2 hop)]
    exact ⟨_, rfl, .inr ⟨hop, by simp⟩⟩
  · obtain ⟨t, crossed, extra, hexec⟩ := exec_eq_finish (fetchInstr s).2 (fetchInstr_ne_undefined s hop)
    exact ⟨_, hexec, .inl ⟨hop, _, rfl⟩⟩

end Sys2Proof.Machine.Claims

/-! ## Compare (44_compare_incdec.md R97): the flags it sets, and what it keeps -/

namespace Sys2Proof.Machine.Claims

/-- The byte of the integer difference is the difference mod 256, so N may be read off either (R97). -/
theorem ofInt_toNat_sub_toNat (r m : Byte) : BitVec.ofInt 8 ((r.toNat : Int) - m.toNat) = r - m := by
  simp [sub_eq_add_neg, BitVec.ofInt_add, BitVec.ofInt_neg]

theorem setsCompare_compare (s : State) (r m : Byte) : SetsCompare r m (s.compare r m) := by
  refine ⟨?_, ?_, ?_⟩
  · simp [State.flag_compare]
  · simp [State.flag_compare, beq_eq_decide]
  · simp [State.flag_compare, ofInt_toNat_sub_toNat, BitVec.msb_eq_getLsbD_last]

/-- `compare` writes no flag but N, Z and C, and nothing outside P (R97). -/
theorem frame_compare (s : State) (r m : Byte) : Frame [] [.n, .z, .c] [] s (s.compare r m) := by
  refine ⟨fun q _ => s.reg_compare q r m, ⟨fun g hg => ?_, s.bit5_compare r m⟩, fun a _ => s.read_compare a r m,
    s.compare_illegalSeen r m⟩
  obtain ⟨hn, hz, hc⟩ : g ≠ .n ∧ g ≠ .z ∧ g ≠ .c := by simpa using hg
  rw [State.flag_compare, if_neg hn, if_neg hz, if_neg hc]

/-- Settles O28: the three flags by `setsCompare_compare`, what is kept by `frame_compare`. -/
theorem compareCoreSetsCZN : Obligations.CompareCoreSetsCZN :=
  fun s r m => ⟨setsCompare_compare s r m, frame_compare s r m, s.compare_pc r m, s.compare_outcome r m⟩

end Sys2Proof.Machine.Claims

/-! ## Branches (45_branch.md R107 to R115): the target, the page test and what `jump` and `finish` keep -/

namespace Sys2Proof

theorem toNat_hi (w : Addr) : (hi w).toNat = w.toNat / 256 := by
  have hlt : w.toNat / 256 < 256 := by omega
  simp [hi, BitVec.extractLsb'_toNat, Nat.shiftRight_eq_div_pow, Nat.mod_eq_of_lt hlt]

/-- The sum with the sign-extended displacement is the integer sum mod 65536 (R107). -/
theorem add_sext16 (w : Addr) (d : Byte) : w + sext16 d = BitVec.ofInt 16 (w.toNat + d.toInt) := by
  simp [sext16, BitVec.signExtend, BitVec.ofInt_add]

namespace Machine

/-- The page test of R74 and R107, on page numbers. -/
theorem pageCrossed_iff (base ea : Addr) : pageCrossed base ea = true ↔ base.toNat / 256 ≠ ea.toNat / 256 := by
  rw [pageCrossed, bne_iff_ne, ne_eq, BitVec.toNat_eq, toNat_hi, toNat_hi]

/-- The rows of the eight branches: 2 base cycles and no page penalty (R57). -/
theorem cost_branch {i : Instr} {d : Byte}
    (h : i ∈ [Instr.bcc d, .bcs d, .beq d, .bne d, .bmi d, .bpl d, .bvc d, .bvs d]) : i.cost = ⟨2, false⟩ := by
  simp only [List.mem_cons, List.not_mem_nil, or_false] at h
  rcases h with rfl | rfl | rfl | rfl | rfl | rfl | rfl | rfl <;> simp only [Instr.cost, Instr.opcode] <;> exact rfl

/-- The cost of a taken branch: one cycle over the base, and one more on another page (R107). -/
theorem cycles_taken (base ea : Addr) : cycles ⟨2, false⟩ false (1 + if pageCrossed base ea then 1 else 0) =
    if base.toNat / 256 = ea.toNat / 256 then 3 else 4 := by
  by_cases hpage : base.toNat / 256 = ea.toNat / 256 <;> simp [cycles, pageCrossed_iff, hpage]

/-- A taken branch jumps to its target and ends in `finish` (R107). -/
theorem branch_true (i : Instr) (d : Byte) (s : State) : branch i d true s =
    .next ((s.jump (s.pc + sext16 d)).finish i false (1 + if pageCrossed s.pc (s.pc + sext16 d) then 1 else 0)) := rfl

/-- A branch not taken only ends in `finish` (R107). -/
theorem branch_false (i : Instr) (d : Byte) (s : State) : branch i d false s = .next (s.finish i false 0) := rfl

end Machine

end Sys2Proof

namespace Sys2Proof.Machine.Claims

variable {rs : List Reg} {fs : List Flag} {stored : List Addr} {s t : State}

@[simp] theorem frame_refl : Frame rs fs stored s s :=
  ⟨fun _ _ => rfl, ⟨fun _ _ => rfl, rfl⟩, fun _ _ => rfl, rfl⟩

/-- PC is outside the frame. -/
@[simp] theorem frame_jump (target : Addr) : Frame rs fs stored s (t.jump target) ↔ Frame rs fs stored s t := by
  simp [Frame, KeepsRegs, KeepsFlags, KeepsMemory]

/-- The outcome is outside the frame. -/
@[simp] theorem frame_finish (i : Instr) (crossed : Bool) (extra : Nat) :
    Frame rs fs stored s (t.finish i crossed extra) ↔ Frame rs fs stored s t := by
  simp [Frame, KeepsRegs, KeepsFlags, KeepsMemory]

/-- An instruction that runs `branch` on `P.f = v`, at 2 base cycles, is a branch on `P.f = v` (R107). -/
theorem branches_of_exec {i : Instr} {d : Byte} {f : Flag} {v : Bool}
    (hexec : exec i s = branch i d (s.flag f == v) s) (hcost : i.cost = ⟨2, false⟩) : Branches i d f v s := by
  by_cases hflag : s.flag f = v
  · rw [beq_iff_eq.2 hflag, branch_true] at hexec
    refine ⟨_, hexec, by simp, ?_⟩
    rw [if_pos hflag, State.finish_pc, State.jump_pc, State.finish_outcome, hcost, cycles_taken]
    exact ⟨add_sext16 s.pc d, rfl⟩
  · rw [beq_eq_false_iff_ne.2 hflag, branch_false] at hexec
    refine ⟨_, hexec, by simp, ?_⟩
    rw [if_neg hflag, State.finish_outcome, hcost]
    exact ⟨rfl, rfl⟩

/-- Settles O32: each of the eight runs `branch` on its flag at 2 base cycles, so `branches_of_exec` applies. -/
theorem branchesTakenAndNotTaken : Obligations.BranchesTakenAndNotTaken := by
  intro s d
  refine ⟨?_, ?_, ?_, ?_, ?_, ?_, ?_, ?_⟩ <;> exact branches_of_exec rfl (cost_branch (d := d) (by simp))

end Sys2Proof.Machine.Claims

/-! ## The round trips of the decoder (30_encoding.md R52, R53, R57) -/

namespace Sys2Proof

open Laws in
/-- Every well-formed instruction is built by the entry its opcode byte selects (the family `OpcodeRow`). -/
theorem opcodeRow_statement (i : Instr) : OpcodeRow.Statement i := by
  cases i with
  | lda f => exact OpcodeRow.lda f
  | ldx f => exact OpcodeRow.ldx f
  | ldy f => exact OpcodeRow.ldy f
  | sta f => exact OpcodeRow.sta f
  | stx f => exact OpcodeRow.stx f
  | sty f => exact OpcodeRow.sty f
  | adc f => exact OpcodeRow.adc f
  | sbc f => exact OpcodeRow.sbc f
  | and f => exact OpcodeRow.and f
  | ora f => exact OpcodeRow.ora f
  | eor f => exact OpcodeRow.eor f
  | asl f => exact OpcodeRow.asl f
  | lsr f => exact OpcodeRow.lsr f
  | rol f => exact OpcodeRow.rol f
  | ror f => exact OpcodeRow.ror f
  | cmp f => exact OpcodeRow.cmp f
  | cpx f => exact OpcodeRow.cpx f
  | cpy f => exact OpcodeRow.cpy f
  | inc f => exact OpcodeRow.inc f
  | dec f => exact OpcodeRow.dec f
  | inx => exact OpcodeRow.inx
  | iny => exact OpcodeRow.iny
  | dex => exact OpcodeRow.dex
  | dey => exact OpcodeRow.dey
  | bcc d => exact OpcodeRow.bcc d
  | bcs d => exact OpcodeRow.bcs d
  | beq d => exact OpcodeRow.beq d
  | bne d => exact OpcodeRow.bne d
  | bmi d => exact OpcodeRow.bmi d
  | bpl d => exact OpcodeRow.bpl d
  | bvc d => exact OpcodeRow.bvc d
  | bvs d => exact OpcodeRow.bvs d
  | jmp f => exact OpcodeRow.jmp f
  | jsr w => exact OpcodeRow.jsr w
  | rts => exact OpcodeRow.rts
  | rti => exact OpcodeRow.rti
  | pha => exact OpcodeRow.pha
  | php => exact OpcodeRow.php
  | pla => exact OpcodeRow.pla
  | plp => exact OpcodeRow.plp
  | clc => exact OpcodeRow.clc
  | sec => exact OpcodeRow.sec
  | cld => exact OpcodeRow.cld
  | sed => exact OpcodeRow.sed
  | cli => exact OpcodeRow.cli
  | sei => exact OpcodeRow.sei
  | clv => exact OpcodeRow.clv
  | tax => exact OpcodeRow.tax
  | tay => exact OpcodeRow.tay
  | txa => exact OpcodeRow.txa
  | tya => exact OpcodeRow.tya
  | tsx => exact OpcodeRow.tsx
  | txs => exact OpcodeRow.txs
  | bit f => exact OpcodeRow.bit f
  | nop => exact OpcodeRow.nop
  | brk => exact OpcodeRow.brk
  | undefined op => exact OpcodeRow.undefined op

/-- What `OpcodeRow.builds` makes of an assembled operand, `Format.build` makes of the operand's own bytes. -/
theorem build_of_builds {f : Format} {o : Operand} {i : Instr} (h : Laws.OpcodeRow.builds f o = some i) :
    ∃ b w, i = f.build b w ∧ o.bytes = f.operandBytes b w := by
  cases f with
  | f1 j =>
    cases o with
    | imp | acc => cases h; exact ⟨0, 0, rfl, rfl⟩
    | _ => cases h
  | f2 mk =>
    cases o with
    | imm b | rel b | zp b | zpx b | zpy b | izx b | izy b => cases h; exact ⟨b, 0, rfl, rfl⟩
    | _ => cases h
  | f3 mk =>
    cases o with
    | abs w | abx w | aby w | ind w => cases h; exact ⟨0, w, rfl, rfl⟩
    | _ => cases h

theorem decode_encode {i : Instr} (hwf : i.wf = true) (rest : List Byte) :
    decode (encode i ++ rest) = .ok (i, rest) := by
  have hrow := opcodeRow_statement i hwf
  cases hop : dispatch i.opcode with
  | none =>
    obtain ⟨op, rfl⟩ : ∃ op, i = .undefined op := ⟨_, by simpa only [hop] using hrow⟩
    exact decode_of_undefined hop rest
  | some e =>
    obtain ⟨b, w, hbuild, hbytes⟩ := build_of_builds (f := e.format) (by simpa only [hop] using hrow)
    exact (decode_of_dispatch hop _ i rest).2 ⟨b, w, hbuild, congrArg (· ++ rest) hbytes⟩

/-- A defined instruction has an entry, and that entry's mode is its own (R56, R57). -/
theorem exists_entry {i : Instr} (h : ∀ op, i ≠ .undefined op) :
    ∃ e, dispatch i.opcode = some e ∧ i.operand.mode = e.format.mode ∧ i.cost = ⟨e.base, e.pagePenalty⟩ := by
  have hwf : i.wf = true := by
    cases i with
    | undefined op => exact absurd rfl (h op)
    | _ => rfl
  have hrow := opcodeRow_statement i hwf
  cases hop : dispatch i.opcode with
  | none => exact absurd (by simpa only [hop] using hrow) (h i.opcode)
  | some e =>
    have hmode := mode_of_decode (decode_encode hwf [])
    exact ⟨e, rfl, by simpa [opcodeMode, hop] using hmode, by simp [Instr.cost, hop]⟩

end Sys2Proof

namespace Sys2Proof.Machine.Claims

/-- Settles O9: `decode_encode`, and the length of an encoding by `length_encode`. -/
theorem decodeOfEncode : Obligations.DecodeOfEncode :=
  fun i rest hwf => ⟨decode_encode hwf rest, length_encode i⟩

/-- Settles O10: `encode_of_decode`, the row behind each opcode byte being sound. -/
theorem encodeOfDecode : Obligations.EncodeOfDecode := fun _ _ _ h => encode_of_decode h

end Sys2Proof.Machine.Claims

/-! ## The table cell by cell (30_encoding.md R57, R58; 70_reset_and_hazards.md R162) -/

namespace Sys2Proof

/-- The cycle counts of R57: a row has at least 2 and with its penalty at most 7, a branch has 2 and no penalty. -/
theorem entry_cycles {op : Byte} {e : Entry} (h : dispatch op = some e) :
    2 ≤ e.base ∧ e.base + e.pagePenalty.toNat ≤ 7 ∧ (e.format.mode = .rel → e.base = 2 ∧ e.pagePenalty = false) := by
  have hcells : ∀ op : Byte, ∀ e ∈ dispatch op,
      2 ≤ e.base ∧ e.base + e.pagePenalty.toNat ≤ 7 ∧ (e.format.mode = .rel → e.base = 2 ∧ e.pagePenalty = false) := by
    decide
  exact hcells op e h

/-- R162: a penalised row is in one of the three indexed modes that can cross. -/
theorem mode_of_pagePenalty {op : Byte} {e : Entry} (h : dispatch op = some e) (hp : e.pagePenalty = true) :
    e.format.mode ∈ [Mode.abx, .aby, .izy] := by
  have hcells : ∀ op : Byte, ∀ e ∈ dispatch op, e.pagePenalty = true → e.format.mode ∈ [Mode.abx, .aby, .izy] := by
    decide
  exact hcells op e h hp

namespace Machine.Claims

/-- Settles O12: `dispatch_eq_none_iff`; the length and the distinctness of the list by evaluation. -/
theorem undefinedBytesAreTheListedOnes : Obligations.UndefinedBytesAreTheListedOnes :=
  ⟨dispatch_eq_none_iff, rfl, by decide⟩

/-- Settles O13, by evaluating the 256 cells. -/
theorem cycleTableOfTheMap : Obligations.CycleTableOfTheMap := by
  constructor
  · decide
  · decide

/-- Settles O8, by evaluating the decoder on the ten words. -/
theorem sampleWordsDecode : Obligations.SampleWordsDecode :=
  ⟨rfl, rfl, rfl, rfl, rfl, rfl, rfl, rfl, rfl, rfl⟩

end Machine.Claims

end Sys2Proof

/-! ## Steps (30_encoding.md R62, 60_exceptions.md R141): the decoded instruction, a stored word, an undefined byte -/

namespace Sys2Proof.Machine

open Claims

variable (s : State)

theorem step_of_decode {i : Instr} {rest : List Byte} (h : decode (bytesAtPc s) = .ok (i, rest)) :
    step s = exec i { s with pc := s.pc + BitVec.ofNat 16 i.length } := by
  obtain ⟨_, hfetch⟩ := decode_bytesAtPc s
  obtain ⟨rfl, -⟩ : (fetchInstr s).1 = i ∧ _ := by simpa [hfetch] using h
  rw [step_eq, fetchInstr_snd_eq_jump]
  rfl

@[simp] theorem State.storeBytes_pc (a : Addr) (bytes : List Byte) : (s.storeBytes a bytes).pc = s.pc := by
  induction bytes generalizing s a with
  | nil => rfl
  | cons v vs ih => exact ih (s.write a v) (a + 1)

/-- Three bytes stored at PC are the bytes the next fetch can take: the three addresses differ, also where PC wraps. -/
theorem bytesAtPc_storeBytes (b₀ b₁ b₂ : Byte) :
    bytesAtPc (s.storeBytes s.pc [b₀, b₁, b₂]) = [b₀, b₁, b₂] := by
  have h02 : s.pc ≠ s.pc + 2#16 := by bv_omega
  have h12 : s.pc + 1#16 ≠ s.pc + 2#16 := by bv_omega
  simp [bytesAtPc, State.storeBytes, State.read_write, BitVec.add_assoc, h02, h12]

/-- A step at an undefined byte takes that byte alone and ends in `raiseIllegal` (R141). -/
theorem step_of_undefined (h : s.read s.pc ∈ undefinedOpcodes) :
    step s = .next ((s.jump (s.pc + 1)).raiseIllegal (s.read s.pc)) := by
  rw [step_eq, fetchInstr_of_undefined s ((dispatch_eq_none_iff _).2 h)]
  rfl

end Sys2Proof.Machine

namespace Sys2Proof.Machine.Claims

/-- Settles O7: the step by `step_of_decode`, the decoded instruction by `decode_bytesAtPc`. -/
theorem stepRunsDecodedInstruction : Obligations.StepRunsDecodedInstruction := by
  refine ⟨fun s _ _ => step_of_decode s, fun s => ?_⟩
  obtain ⟨rest, hdecode⟩ := decode_bytesAtPc s
  exact ⟨_, rest, hdecode, (encode_of_decode hdecode).1⟩

/-- Settles O14: the stored bytes are those the step decodes, so `step_of_decode` applies. -/
theorem storedTableWordRuns : Obligations.StoredTableWordRuns := by
  intro s nbits w i hword
  have hpc : (s.withFetchWord nbits w).pc = s.pc := s.storeBytes_pc _ _
  have hbytes : bytesAtPc (s.withFetchWord nbits w) = tableBytes nbits w := bytesAtPc_storeBytes ..
  unfold decodeTableWord at hword
  split at hword
  · next j rest hdecode =>
    obtain rfl : j = i := Option.some.inj hword
    rw [step_of_decode _ (hbytes ▸ hdecode), hpc]
  · cases hword

/-- Settles O45: `exec` by its definition, the step by `step_of_undefined`, whose reported address is PC again. -/
theorem undefinedByteOutcome : Obligations.UndefinedByteOutcome := by
  refine ⟨fun _ _ => rfl, fun s hop => ?_⟩
  rw [step_of_undefined s hop, State.raiseIllegal, State.jump_pc, BitVec.add_sub_cancel]
  rfl

/-- Settles O46: `checkedStep` looks at the outcome, which `stepIsTotal` and `undefinedByteOutcome` give. -/
theorem checkedStepFaultsOnUndefinedBytes : Obligations.CheckedStepFaultsOnUndefinedBytes := by
  intro s
  obtain ⟨t, hstep, hcase⟩ := stepIsTotal s
  constructor
  · intro hop
    rw [checkedStep, undefinedByteOutcome.2 s hop]
  · intro hop
    obtain ⟨-, n, hok⟩ | ⟨hundef, -⟩ := hcase
    · simp only [checkedStep, hstep, hok]
    · exact absurd hundef hop

end Sys2Proof.Machine.Claims

/-! ## Which updates an instruction is composed of (R16, R18, R19, R26, R30, R38): one case analysis of `exec`, from
which every statement of what is left unchanged follows by induction over the updates -/

namespace Sys2Proof.Machine

open Claims

/-- What a run of updates may touch: registers, flags, memory bytes, PC, and the undefined-opcode mark. -/
structure Permission where
  regs : List Reg
  flags : List Flag
  stored : List Addr
  pc : Prop
  mark : Prop

/-- `t` is reached from `s` by updates that `p` permits. The whole of P is written only where every flag is permitted;
what the step reports may always be written. -/
inductive Updates (p : Permission) (s : State) : State → Prop
  | refl : Updates p s s
  | setReg {t r} (v : Byte) : Updates p s t → r ∈ p.regs → Updates p s (t.setReg r v)
  | setFlag {t f} (v : Bool) : Updates p s t → f ∈ p.flags → Updates p s (t.setFlag f v)
  | writeP {t} (v : Byte) : Updates p s t → (∀ f, f ∈ p.flags) → Updates p s (t.writeP v)
  | write {t a} (v : Byte) : Updates p s t → a ∈ p.stored → Updates p s (t.write a v)
  | jump {t} (target : Addr) : Updates p s t → p.pc → Updates p s (t.jump target)
  | finish {t} (i : Instr) (crossed : Bool) (extra : Nat) : Updates p s t → Updates p s (t.finish i crossed extra)
  | raiseIllegal {t} (op : Byte) : Updates p s t → p.mark → Updates p s (t.raiseIllegal op)

namespace Updates

variable {p : Permission} {s t : State}

theorem setNZ (v : Byte) (h : Updates p s t) (hf : [.n, .z] ⊆ p.flags) : Updates p s (t.setNZ v) :=
  (h.setFlag _ (hf (by simp))).setFlag _ (hf (by simp))

theorem compare (r m : Byte) (h : Updates p s t) (hf : [.n, .z, .c] ⊆ p.flags) : Updates p s (t.compare r m) :=
  ((h.setFlag _ (hf (by simp))).setFlag _ (hf (by simp))).setFlag _ (hf (by simp))

theorem push (v : Byte) (h : Updates p s t) (hsp : .sp ∈ p.regs) (ha : stackAddr t.sp ∈ p.stored) :
    Updates p s (t.push v) :=
  (h.write v ha).setReg _ hsp

theorem pull (h : Updates p s t) (hsp : .sp ∈ p.regs) : Updates p s t.pull.2 := h.setReg _ hsp

/-- A result goes to A in accumulator mode, else to the byte at EA (R79). -/
theorem writeOperand {ctx : Ctx} (v : Byte) (h : Updates p s t) (ha : ctx.mode = .acc → .a ∈ p.regs)
    (hm : ctx.mode ≠ .acc → ctx.ea ∈ p.stored) : Updates p s (t.writeOperand ctx v) := by
  rcases t.writeOperand_cases ctx v with ⟨hacc, e⟩ | ⟨hmem, e⟩ <;> rw [e]
  · exact h.setReg v (ha hacc)
  · exact h.write v (hm hmem)

/-! What the updates leave unchanged -/

theorem reg_eq (h : Updates p s t) {q : Reg} (hq : q ∉ p.regs) : t.reg q = s.reg q := by
  induction h with
  | refl => rfl
  | setReg v _ hr ih => rwa [State.reg_setReg, if_neg (ne_of_mem_of_not_mem hr hq).symm]
  | _ => simpa

theorem flag_eq (h : Updates p s t) {g : Flag} (hg : g ∉ p.flags) : t.flag g = s.flag g := by
  induction h with
  | refl => rfl
  | setFlag v _ hf ih => rwa [State.flag_setFlag, if_neg (ne_of_mem_of_not_mem hf hg).symm]
  | writeP v _ hall => exact absurd (hall g) hg
  | _ => simpa

/-- Bit 5 is left alone but by a write of the whole of P, which sets it (R22). -/
theorem bit5_eq (h : Updates p s t) : t.bit5 = s.bit5 ∨ t.bit5 = true ∧ ∀ f, f ∈ p.flags := by
  induction h with
  | refl => exact .inl rfl
  | writeP v _ hall => exact .inr ⟨State.bit5_writeP .., hall⟩
  | _ => simpa

theorem read_eq (h : Updates p s t) {b : Addr} (hb : b ∉ p.stored) : t.read b = s.read b := by
  induction h with
  | refl => rfl
  | write v _ ha ih => rwa [State.read_write, if_neg (ne_of_mem_of_not_mem ha hb).symm]
  | _ => simpa

theorem pc_eq (h : Updates p s t) (hpc : ¬ p.pc) : t.pc = s.pc := by
  induction h with
  | refl => rfl
  | jump _ _ hj => exact absurd hj hpc
  | _ => simpa

theorem illegalSeen_eq (h : Updates p s t) (hmark : ¬ p.mark) : t.illegalSeen = s.illegalSeen := by
  induction h with
  | refl => rfl
  | raiseIllegal _ _ hm => exact absurd hm hmark
  | _ => simpa

theorem wf_mem (h : Updates p s t) (hs : s.mem.wf) : t.mem.wf := by
  induction h with
  | refl => exact hs
  | write v _ _ ih => exact Memory.wf_write _ _ _ ih
  | _ => simpa

theorem frame (h : Updates p s t) (hmark : ¬ p.mark) (hflags : ∃ f, f ∉ p.flags) :
    Frame p.regs p.flags p.stored s t := by
  obtain ⟨f, hf⟩ := hflags
  refine ⟨fun _ => h.reg_eq, ⟨fun _ => h.flag_eq, ?_⟩, fun _ => h.read_eq, h.illegalSeen_eq hmark⟩
  exact h.bit5_eq.resolve_right fun hall => hf (hall.2 f)

end Updates

/-! The updates of each shared meaning -/

section

variable {p : Permission} {s t : State} {i : Instr}

theorem updates_loadInto {r : Reg} (h : loadInto i r s = .next t) (hr : r ∈ p.regs) (hf : [.n, .z] ⊆ p.flags) :
    Updates p s t := by
  rw [loadInto_next h]
  exact ((Updates.refl.setReg _ hr).setNZ _ hf).finish ..

theorem updates_storeFrom {r : Reg} (h : storeFrom i r s = .next t) (hea : eaOf i s ∈ p.stored) : Updates p s t := by
  rw [storeFrom_next h]
  exact (Updates.refl.write _ hea).finish ..

theorem updates_arithmetic {alu : Byte → Byte → Bool → AluResult} (h : arithmetic i alu s = .next t)
    (ha : .a ∈ p.regs) (hf : [.n, .v, .z, .c] ⊆ p.flags) : Updates p s t := by
  obtain ⟨r, -, rfl⟩ := arithmetic_next h
  have hv : .v ∈ p.flags := hf (by simp)
  have hc : .c ∈ p.flags := hf (by simp)
  exact ((((Updates.refl.setFlag _ hc).setFlag _ hv).setReg _ ha).setNZ _ fun g hg => hf (by grind)).finish ..

theorem updates_logic {op : Byte → Byte → Byte} (h : logic i op s = .next t) (ha : .a ∈ p.regs)
    (hf : [.n, .z] ⊆ p.flags) : Updates p s t := by
  obtain ⟨r, -, rfl⟩ := logic_next h
  exact ((Updates.refl.setReg _ ha).setNZ _ hf).finish ..

theorem updates_shift {k : ShiftKind} (h : shift i k s = .next t) (ha : i.operand.mode = .acc → .a ∈ p.regs)
    (hea : i.operand.mode ≠ .acc → eaOf i s ∈ p.stored) (hf : [.n, .z, .c] ⊆ p.flags) : Updates p s t := by
  obtain ⟨v, r, -, -, rfl⟩ := shift_next h
  rw [← resolve_mode s] at ha hea
  have hc : .c ∈ p.flags := hf (by simp)
  exact (((Updates.refl.setFlag _ hc).writeOperand r ha hea).setNZ _ fun g hg => hf (by grind)).finish ..

theorem updates_compareReg {r : Reg} (h : compareReg i r s = .next t) (hf : [.n, .z, .c] ⊆ p.flags) :
    Updates p s t := by
  rw [compareReg_next h]
  exact (Updates.refl.compare _ _ hf).finish ..

theorem updates_stepMemory {delta : Byte} (h : stepMemory i delta s = .next t) (hea : eaOf i s ∈ p.stored)
    (hf : [.n, .z] ⊆ p.flags) : Updates p s t := by
  obtain ⟨r, -, rfl⟩ := stepMemory_next h
  exact ((Updates.refl.write r hea).setNZ _ hf).finish ..

theorem updates_stepReg {r : Reg} {delta : Byte} (h : stepReg i r delta s = .next t) (hr : r ∈ p.regs)
    (hf : [.n, .z] ⊆ p.flags) : Updates p s t := by
  obtain ⟨v, -, rfl⟩ := stepReg_next h
  exact ((Updates.refl.setReg v hr).setNZ _ hf).finish ..

theorem updates_branch {d : Byte} {cond : Bool} (h : branch i d cond s = .next t) (hpc : p.pc) : Updates p s t := by
  obtain ⟨-, rfl⟩ | ⟨-, rfl⟩ := branch_next h
  · exact (Updates.refl.jump _ hpc).finish ..
  · exact Updates.refl.finish ..

theorem updates_writeFlag {f : Flag} {v : Bool} (h : writeFlag i f v s = .next t) (hf : f ∈ p.flags) :
    Updates p s t := by
  rw [writeFlag_next h]
  exact (Updates.refl.setFlag v hf).finish ..

theorem updates_transfer {src dst : Reg} (h : transfer i src dst s = .next t) (hr : dst ∈ p.regs)
    (hf : [.n, .z] ⊆ p.flags) : Updates p s t := by
  rw [transfer_next h]
  exact ((Updates.refl.setReg _ hr).setNZ _ hf).finish ..

end

/-- The control transfers, the only instructions whose handler moves PC (R18). -/
def MovesPc (i : Instr) : Prop :=
  i.operand.mode = .rel ∨ i ∈ [Instr.rts, .rti] ∨ (∃ f, i = .jmp f) ∨ ∃ w, i = .jsr w

/-- The rows of the writers' tables (R16, R18, R19, R26, R30, R38) of one instruction. -/
def permission (i : Instr) (s : State) : Permission :=
  ⟨writtenRegs i, writtenFlags i, storedBytes i s, MovesPc i, ∃ op, i = .undefined op⟩

theorem mode_acc_iff (f : ShiftForm) : f.operand.mode = .acc ↔ f = .acc := by
  cases f <;> simp [ShiftForm.operand, Operand.mode]

theorem mem_allFlags (f : Flag) : f ∈ [Flag.n, .v, .b, .d, .i, .z, .c] := by
  cases f <;> simp

/-- JSR's second push stores one stack byte below the first (R117). -/
theorem stackBelow_one (sp : Byte) : stackBelow sp 1 = stackAddr (sp - 1) := stackBelow_eq_stackAddr sp (by decide)

/-- Every instruction is composed of updates its rows permit. -/
theorem updates_exec {i : Instr} {s t : State} (h : exec i s = .next t) : Updates (permission i s) s t := by
  cases i with
  | lda f | ldx f | ldy f => exact updates_loadInto h (.head _) (.refl _)
  | sta f | stx f | sty f => exact updates_storeFrom h (.head _)
  | adc f | sbc f => exact updates_arithmetic h (.head _) (.refl _)
  | and f | ora f | eor f => exact updates_logic h (.head _) (.refl _)
  | asl f | lsr f | rol f | ror f =>
    refine updates_shift h ?_ ?_ (.refl _) <;>
      simp +contextual [permission, writtenRegs, storedBytes, Instr.operand, mode_acc_iff]
  | cmp f | cpx f | cpy f => exact updates_compareReg h (.refl _)
  | inc f | dec f => exact updates_stepMemory h (.head _) (.refl _)
  | inx | iny | dex | dey => exact updates_stepReg h (.head _) (.refl _)
  | bcc d | bcs d | beq d | bne d | bmi d | bpl d | bvc d | bvs d => exact updates_branch h (.inl rfl)
  | jmp f => cases h; exact (Updates.refl.jump _ (by simp [permission, MovesPc])).finish ..
  | jsr w =>
    cases h
    have hhigh : Updates (permission (.jsr w) s) s (s.push (hi (s.pc - 1))) :=
      Updates.refl.push _ (.head _) (by simp [permission, storedBytes])
    have hlow := hhigh.push (lo (s.pc - 1)) (.head _) (by simp [permission, storedBytes, stackBelow_one])
    exact (hlow.jump _ (by simp [permission, MovesPc])).finish ..
  | rts =>
    cases h
    exact (((Updates.refl.pull (.head _)).pull (.head _)).jump _ (by simp [permission, MovesPc])).finish ..
  | rti =>
    cases h
    have hp : Updates (permission .rti s) s (s.pull.2.writeP s.pull.1) :=
      (Updates.refl.pull (.head _)).writeP _ mem_allFlags
    exact (((hp.pull (.head _)).pull (.head _)).jump _ (by simp [permission, MovesPc])).finish ..
  | pha | php => cases h; exact (Updates.refl.push _ (.head _) (by simp [permission, storedBytes])).finish ..
  | pla =>
    cases h
    exact (((Updates.refl.pull (.tail _ (.head _))).setReg _ (.head _)).setNZ _ (.refl _)).finish ..
  | plp =>
    cases h
    exact ((Updates.refl.pull (.head _)).writeP _ mem_allFlags).finish ..
  | clc | sec | cld | sed | cli | sei | clv => exact updates_writeFlag h (.head _)
  | tax | tay | txa | tya | tsx => exact updates_transfer h (.head _) (.refl _)
  | txs => cases h; exact (Updates.refl.setReg _ (.head _)).finish ..
  | bit f =>
    cases h
    exact (((Updates.refl.setFlag _ (.head _)).setFlag _ (.tail _ (.head _))).setFlag _
      (.tail _ (.tail _ (.head _)))).finish ..
  | nop => cases h; exact Updates.refl.finish ..
  | brk => cases h; exact (Updates.refl.setFlag _ (.head _)).finish ..
  | undefined op => cases h; exact Updates.refl.raiseIllegal op ⟨op, rfl⟩

end Sys2Proof.Machine

/-! ## The whole machine: the writers' tables and the invariant (R16, R18, R19, R22, R26, R35, R38) -/

namespace Sys2Proof.Machine

open Claims

/-- PLP and RTI alone write the whole of P: every other row lacks B or I. -/
theorem eq_plp_or_rti_of_writtenFlags {i : Instr} (h : ∀ f, f ∈ writtenFlags i) : i = .plp ∨ i = .rti := by
  have hb := h .b
  have hi := h .i
  cases i with
  | plp => exact .inl rfl
  | rti => exact .inr rfl
  | _ => simp [writtenFlags] at hb hi

/-- The frame of a defined instruction other than PLP and RTI: its rows of the writers' tables. -/
theorem frame_exec {i : Instr} {s t : State} (h : exec i s = .next t) (hu : ∀ op, i ≠ .undefined op) (hplp : i ≠ .plp)
    (hrti : i ≠ .rti) : Frame (writtenRegs i) (writtenFlags i) (storedBytes i s) s t := by
  refine (updates_exec h).frame (fun ⟨op, hop⟩ => hu op hop) ?_
  by_contra hall
  exact (eq_plp_or_rti_of_writtenFlags (by simpa [permission] using hall)).elim hplp hrti

/-- The fetch moves PC alone, so it keeps the invariant (R54). -/
theorem inv_fetchInstr {s : State} (h : s.Inv) : (fetchInstr s).2.Inv := by
  rw [fetchInstr_snd]
  exact ⟨h.bit5, h.mem⟩

/-- Every instruction keeps bit 5 of P at 1 and memory canonical. -/
theorem exec_keeps_inv {i : Instr} {s t : State} (hs : s.Inv) (h : exec i s = .next t) : t.Inv := by
  refine ⟨?_, (updates_exec h).wf_mem hs.mem⟩
  obtain hkept | ⟨hset, -⟩ := (updates_exec h).bit5_eq
  · rw [hkept, hs.bit5]
  · exact hset

end Sys2Proof.Machine

namespace Sys2Proof.Machine.Claims

/-- Settles O47: the fetch keeps the invariant by `inv_fetchInstr`, the instruction by `exec_keeps_inv`. -/
theorem stepKeepsInv : Obligations.StepKeepsInv :=
  fun s _ hs hstep => exec_keeps_inv (inv_fetchInstr hs) (step_eq s ▸ hstep)

/-- Settles O51: `updates_exec`, and that only the rows of PLP and RTI hold every flag. -/
theorem flagsHaveOnlyTheListedWriters : Obligations.FlagsHaveOnlyTheListedWriters := by
  intro i s t h
  have hu := updates_exec h
  exact ⟨fun f hf => hu.flag_eq hf, hu.bit5_eq.imp_right fun ⟨hset, hall⟩ => ⟨hset, eq_plp_or_rti_of_writtenFlags hall⟩⟩

/-- Settles O52, by `updates_exec`. -/
theorem registersHaveOnlyTheListedWriters : Obligations.RegistersHaveOnlyTheListedWriters := by
  intro i s t h
  have hu := updates_exec h
  exact ⟨fun r hr => hu.reg_eq hr, fun hpc => by_contra fun hstay => hpc (hu.pc_eq hstay)⟩

/-- Settles O53, by `updates_exec`. -/
theorem memoryHasOnlyTheListedWriters : Obligations.MemoryHasOnlyTheListedWriters :=
  fun _ _ _ h _ ha => (updates_exec h).read_eq ha

/-- Settles O48: the memory of `State.reset` lists nothing. -/
theorem resetMeetsInv : Obligations.ResetMeetsInv := ⟨⟨rfl, Memory.wf_nil⟩, rfl⟩

end Sys2Proof.Machine.Claims

/-! ## What no instruction reads (R23, R24, R30, R149): two runs that differ in a field no handler looks at -/

namespace Sys2Proof.Machine

/-- The meaning `m` answers a next state, and `u` done before it is `u` done after it. -/
def CommutesWith (u : State → State) (m : State → Result) (s : State) : Prop :=
  ∃ t, m s = .next t ∧ m (u s) = .next (u t)

theorem CommutesWith.or_same {u : State → State} {m : State → Result} {s : State} (h : CommutesWith u m s) :
    ∃ t, m s = .next t ∧ (m (u s) = .next (u t) ∨ m (u s) = .next t) := by
  obtain ⟨t, ht, hu⟩ := h
  exact ⟨t, ht, .inl hu⟩

/-- A branch is to be looked at taken and not taken. -/
theorem commutesWith_branch {u : State → State} {i : Instr} {d : Byte} {cond : State → Bool} {s : State}
    (hcond : cond (u s) = cond s) (htaken : CommutesWith u (branch i d true) s)
    (hnot : CommutesWith u (branch i d false) s) : CommutesWith u (fun s => branch i d (cond s) s) s := by
  simp only [CommutesWith, hcond]
  cases cond s
  · exact hnot
  · exact htaken

/-- The undefined-opcode mark set to `b`. -/
def State.setMark (b : Bool) (s : State) : State := { s with illegalSeen := b }

theorem State.push_setMark (s : State) (b : Bool) (v : Byte) : (s.setMark b).push v = (s.push v).setMark b := rfl

theorem commutesWith_setMark_stepMemory (i : Instr) (delta : Byte) (b : Bool) (s : State) :
    CommutesWith (State.setMark b) (stepMemory i delta) s := ⟨_, rfl, rfl⟩

theorem commutesWith_setMark_stepReg (i : Instr) (r : Reg) (delta : Byte) (b : Bool) (s : State) :
    CommutesWith (State.setMark b) (stepReg i r delta) s := by
  cases r <;> exact ⟨_, rfl, rfl⟩

/-- No defined instruction reads or writes the mark: each arm gives the same fields of either state. -/
theorem commutesWith_setMark {i : Instr} (h : ∀ op, i ≠ .undefined op) (b : Bool) (s : State) :
    CommutesWith (State.setMark b) (exec i) s := by
  cases i with
  | bcc d | bcs d | beq d | bne d | bmi d | bpl d | bvc d | bvs d =>
    exact commutesWith_branch rfl ⟨_, rfl, rfl⟩ ⟨_, rfl, rfl⟩
  | asl f | lsr f | rol f | ror f => cases f <;> exact ⟨_, rfl, rfl⟩
  | inc f | dec f => exact commutesWith_setMark_stepMemory ..
  | inx | iny | dex | dey => exact commutesWith_setMark_stepReg ..
  | jsr w => exact ⟨_, rfl, by rw [exec, execJsr, State.push_setMark]; rfl⟩
  | pha => exact ⟨_, rfl, by rw [exec, execPha, State.push_setMark]; rfl⟩
  | php => exact ⟨_, rfl, by rw [exec, execPhp, State.push_setMark]; rfl⟩
  | undefined op => exact absurd rfl (h op)
  | _ => exact ⟨_, rfl, rfl⟩

/-- Every arm writes the outcome anew, from the other fields. -/
theorem exec_outcome (i : Instr) (s : State) (o : StepOutcome) : exec i { s with outcome := o } = exec i s := by
  cases i with
  | asl f | lsr f | rol f | ror f => cases f <;> rfl
  | _ => rfl

/-! A flag written beforehand, moved behind each update; a resolver and an operand read do not see it -/

section

variable (s : State) (g : Flag) (b : Bool)

theorem State.setReg_setFlag (r : Reg) (v : Byte) : (s.setFlag g b).setReg r v = (s.setReg r v).setFlag g b := by
  cases r <;> rfl

theorem State.write_setFlag (a : Addr) (v : Byte) : (s.setFlag g b).write a v = (s.write a v).setFlag g b := rfl

theorem State.push_setFlag (v : Byte) : (s.setFlag g b).push v = (s.push v).setFlag g b := rfl

theorem State.jump_setFlag (target : Addr) : (s.setFlag g b).jump target = (s.jump target).setFlag g b := rfl

theorem State.finish_setFlag (i : Instr) (crossed : Bool) (extra : Nat) :
    (s.setFlag g b).finish i crossed extra = (s.finish i crossed extra).setFlag g b := rfl

theorem State.writeOperand_setFlag (ctx : Ctx) (v : Byte) :
    (s.setFlag g b).writeOperand ctx v = (s.writeOperand ctx v).setFlag g b := by
  unfold State.writeOperand
  split <;> rfl

theorem resolve_setFlag (o : Operand) : resolve o (s.setFlag g b) = resolve o s := resolve_congr o s _ rfl rfl rfl

theorem State.readOperand_setFlag (ctx : Ctx) : (s.setFlag g b).readOperand ctx = s.readOperand ctx := rfl

theorem commutesWith_storeFrom (i : Instr) (r : Reg) : CommutesWith (State.setFlag · g b) (storeFrom i r) s :=
  ⟨_, rfl, by simp [storeFrom, resolve_setFlag, State.write_setFlag, State.finish_setFlag]⟩

theorem commutesWith_execJmp (f : JmpForm) : CommutesWith (State.setFlag · g b) (execJmp f) s :=
  ⟨_, rfl, by simp [execJmp, resolve_setFlag, State.jump_setFlag, State.finish_setFlag]⟩

end

/-- PLA on the pulled byte and the state behind the pull (R122). -/
theorem execPla_eq (s : State) :
    execPla s = .next (((s.pull.2.setReg .a s.pull.1).setNZ s.pull.1).finish .pla false 0) := rfl

section

/-! B, D and I: the shared meanings neither read them nor write them -/

variable {s : State} {g : Flag} (hg : g ∉ [Flag.n, .v, .z, .c]) (b : Bool) {i : Instr}

include hg

theorem State.flag_setFlag_spare {f : Flag} (hf : f ∈ [Flag.n, .v, .z, .c]) : (s.setFlag g b).flag f = s.flag f := by
  rw [State.flag_setFlag, if_neg (ne_of_mem_of_not_mem hf hg)]

theorem State.setFlag_setFlag_spare {f : Flag} (hf : f ∈ [Flag.n, .v, .z, .c]) (v : Bool) :
    (s.setFlag g b).setFlag f v = (s.setFlag f v).setFlag g b :=
  s.setFlag_comm (ne_of_mem_of_not_mem hf hg).symm b v

theorem State.setNZ_setFlag (v : Byte) : (s.setFlag g b).setNZ v = (s.setNZ v).setFlag g b := by
  simp [State.setNZ, State.setFlag_setFlag_spare hg]

theorem State.compare_setFlag (r m : Byte) : (s.setFlag g b).compare r m = (s.compare r m).setFlag g b := by
  simp [State.compare, State.setFlag_setFlag_spare hg]

theorem commutesWith_loadInto (r : Reg) : CommutesWith (State.setFlag · g b) (loadInto i r) s :=
  ⟨_, rfl, by simp [loadInto, resolve_setFlag, State.readOperand_setFlag, State.setReg_setFlag,
    State.setNZ_setFlag hg, State.finish_setFlag]⟩

theorem commutesWith_arithmetic (alu : Byte → Byte → Bool → AluResult) :
    CommutesWith (State.setFlag · g b) (arithmetic i alu) s :=
  ⟨_, rfl, by simp [arithmetic, resolve_setFlag, State.readOperand_setFlag, State.setReg_setFlag,
    State.setNZ_setFlag hg, State.finish_setFlag, State.flag_setFlag_spare hg, State.setFlag_setFlag_spare hg]⟩

theorem commutesWith_logic (op : Byte → Byte → Byte) : CommutesWith (State.setFlag · g b) (logic i op) s :=
  ⟨_, rfl, by simp [logic, resolve_setFlag, State.readOperand_setFlag, State.setReg_setFlag, State.setNZ_setFlag hg,
    State.finish_setFlag]⟩

theorem commutesWith_shift (k : ShiftKind) : CommutesWith (State.setFlag · g b) (shift i k) s :=
  ⟨_, rfl, by simp [shift, resolve_setFlag, State.readOperand_setFlag, State.writeOperand_setFlag,
    State.setNZ_setFlag hg, State.finish_setFlag, State.flag_setFlag_spare hg, State.setFlag_setFlag_spare hg]⟩

theorem commutesWith_compareReg (r : Reg) : CommutesWith (State.setFlag · g b) (compareReg i r) s :=
  ⟨_, rfl, by simp [compareReg, resolve_setFlag, State.readOperand_setFlag, State.compare_setFlag hg,
    State.finish_setFlag]⟩

theorem commutesWith_stepMemory (delta : Byte) : CommutesWith (State.setFlag · g b) (stepMemory i delta) s :=
  ⟨_, rfl, by simp [stepMemory, resolve_setFlag, State.write_setFlag, State.setNZ_setFlag hg, State.finish_setFlag]⟩

theorem commutesWith_stepReg (r : Reg) (delta : Byte) : CommutesWith (State.setFlag · g b) (stepReg i r delta) s :=
  ⟨_, rfl, by simp [stepReg, State.setReg_setFlag, State.setNZ_setFlag hg, State.finish_setFlag]⟩

theorem commutesWith_branchOn {d : Byte} {f : Flag} (hf : f ∈ [Flag.n, .v, .z, .c]) (v : Bool) :
    CommutesWith (State.setFlag · g b) (fun s => branch i d (s.flag f == v) s) s :=
  commutesWith_branch (cond := fun s => s.flag f == v) (by simp [State.flag_setFlag_spare hg, hf])
    ⟨_, rfl, rfl⟩ ⟨_, rfl, rfl⟩

theorem commutesWith_transfer (src dst : Reg) : CommutesWith (State.setFlag · g b) (transfer i src dst) s :=
  ⟨_, rfl, by simp [transfer, State.setReg_setFlag, State.setNZ_setFlag hg, State.finish_setFlag]⟩

theorem commutesWith_execBit (f : BitForm) : CommutesWith (State.setFlag · g b) (execBit f) s :=
  ⟨_, rfl, by simp [execBit, resolve_setFlag, State.readOperand_setFlag, State.finish_setFlag,
    State.setFlag_setFlag_spare hg]⟩

theorem commutesWith_execPla : CommutesWith (State.setFlag · g b) execPla s := by
  have hpull : (s.setFlag g b).pull = (s.pull.1, s.pull.2.setFlag g b) := rfl
  refine ⟨_, execPla_eq s, ?_⟩
  rw [execPla_eq, hpull, State.setReg_setFlag, State.setNZ_setFlag hg, State.finish_setFlag]

end

theorem commutesWith_writeFlag {s : State} {g f : Flag} (hfg : f ≠ g) (b v : Bool) {i : Instr} :
    CommutesWith (State.setFlag · g b) (writeFlag i f v) s :=
  ⟨_, rfl, by simp [writeFlag, s.setFlag_comm hfg.symm b v, State.finish_setFlag]⟩

theorem State.setFlag_setFlag_same (s : State) (f : Flag) (b c : Bool) :
    (s.setFlag f b).setFlag f c = s.setFlag f c := by
  have hp : ((s.setFlag f b).setFlag f c).p = (s.setFlag f c).p := by
    refine BitVec.eq_of_getLsbD_eq fun k hk => ?_
    simp only [State.getLsbD_setFlag _ _ _ k hk]
    split <;> rfl
  exact congrArg (fun p => { s with p := p }) hp

/-- PHP's byte has bit 4 set, whatever B is (D9). -/
theorem or_php_setFlag_b (s : State) (b : Bool) : (s.setFlag .b b).p ||| 0x30#8 = s.p ||| 0x30#8 := by
  refine BitVec.eq_of_getLsbD_eq fun k hk => ?_
  simp only [BitVec.getLsbD_or, State.getLsbD_setFlag _ _ _ k hk]
  by_cases hb : k = Flag.b.bit
  · subst hb
    simp [Flag.bit]
  · rw [if_neg hb]

/-- With B written beforehand, PLP, RTI and BRK, which write B themselves, give the same next state; every other
instruction gives the same but for B. -/
theorem exec_setFlag_b (i : Instr) (s : State) (b : Bool) : ∃ t, exec i s = .next t ∧
    (exec i (s.setFlag .b b) = .next (t.setFlag .b b) ∨ exec i (s.setFlag .b b) = .next t) := by
  have hb : Flag.b ∉ [Flag.n, .v, .z, .c] := by decide
  cases i with
  | lda f | ldx f | ldy f => exact (commutesWith_loadInto hb b _).or_same
  | sta f | stx f | sty f => exact (commutesWith_storeFrom ..).or_same
  | adc f | sbc f => exact (commutesWith_arithmetic hb b _).or_same
  | and f | ora f | eor f => exact (commutesWith_logic hb b _).or_same
  | asl f | lsr f | rol f | ror f => exact (commutesWith_shift hb b _).or_same
  | cmp f | cpx f | cpy f => exact (commutesWith_compareReg hb b _).or_same
  | inc f | dec f => exact (commutesWith_stepMemory hb b _).or_same
  | inx | iny | dex | dey => exact (commutesWith_stepReg hb b _ _).or_same
  | bcc d | bcs d | beq d | bne d | bmi d | bpl d | bvc d | bvs d =>
    exact (commutesWith_branchOn hb b (by decide) _).or_same
  | jmp f => exact (commutesWith_execJmp ..).or_same
  | jsr w =>
    exact ⟨_, rfl, .inl (by simp [exec, execJsr, State.push_setFlag, State.jump_setFlag, State.finish_setFlag])⟩
  | pha => exact ⟨_, rfl, .inl (by simp [exec, execPha, State.push_setFlag, State.finish_setFlag])⟩
  | php => exact ⟨_, rfl, .inl (by simp [exec, execPhp, or_php_setFlag_b, State.push_setFlag, State.finish_setFlag])⟩
  | rts | txs | nop | undefined _ => exact ⟨_, rfl, .inl rfl⟩
  | rti | plp => exact ⟨_, rfl, .inr rfl⟩
  | pla => exact (commutesWith_execPla hb b).or_same
  | clc | sec | cld | sed | cli | sei | clv => exact (commutesWith_writeFlag (by decide) b _).or_same
  | tax | tay | txa | tya | tsx => exact (commutesWith_transfer hb b _ _).or_same
  | bit f => exact (commutesWith_execBit hb b f).or_same
  | brk => exact ⟨_, rfl, .inr (by simp [exec, execBrk, State.setFlag_setFlag_same])⟩

end Sys2Proof.Machine

namespace Sys2Proof.Machine.Claims

/-- Settles O56, by `exec_setFlag_b`. -/
theorem breakFlagIsNeverRead : Obligations.BreakFlagIsNeverRead := exec_setFlag_b

/-- Settles O25: D is outside what `arithmetic` reads and writes. -/
theorem decimalFlagChangesNoArithmetic : Obligations.DecimalFlagChangesNoArithmetic := by
  have hd : Flag.d ∉ [Flag.n, .v, .z, .c] := by decide
  exact fun s f b => ⟨commutesWith_arithmetic hd b _, commutesWith_arithmetic hd b _⟩

/-- Settles O54: an undefined byte sets the mark; a defined instruction keeps it, by `updates_exec`, and reads it not,
by `commutesWith_setMark`. -/
theorem illegalSeenIsStickyAndUnread : Obligations.IllegalSeenIsStickyAndUnread := by
  intro i s b
  by_cases hu : ∃ op, i = .undefined op
  · obtain ⟨op, rfl⟩ := hu
    exact ⟨_, rfl, by simp, by simp [exec, execUndefined, State.raiseIllegal]⟩
  · obtain ⟨t, ht, hmark⟩ := commutesWith_setMark (fun op hop => hu ⟨op, hop⟩) b s
    exact ⟨t, ht, by simpa [hu] using (updates_exec ht).illegalSeen_eq hu, by simpa [hu, State.setMark] using hmark⟩

/-- Settles O55, by `exec_outcome`. -/
theorem reportedCyclesAreUnread : Obligations.ReportedCyclesAreUnread := exec_outcome

end Sys2Proof.Machine.Claims

/-! ## Addressing modes (40_addressing_modes.md R65 to R80), as numbers -/

namespace Sys2Proof

@[simp] theorem toNat_zext16 (b : Byte) : (zext16 b).toNat = b.toNat := by
  simp only [zext16, BitVec.toNat_setWidth]
  omega

/-- A zero-page address written from its number (R68). -/
theorem zext16_eq_ofNat (b : Byte) : zext16 b = BitVec.ofNat 16 b.toNat := by
  apply BitVec.eq_of_toNat_eq
  simp only [toNat_zext16, BitVec.toNat_ofNat]
  omega

/-- Keeping the high byte of a word and adding to its low byte gives the word of the same page (R75). -/
theorem and_page_add (l h : Byte) (k : Nat) :
    (word l h &&& 0xFF00#16) + BitVec.ofNat 16 (k % 256) = word (BitVec.ofNat 8 k) h := by
  have hpage : word l h &&& 0xFF00#16 = word 0x00#8 h :=
    calc word l h &&& 0xFF00#16
      _ = (h &&& BitVec.allOnes 8) ++ (l &&& 0x00#8) := BitVec.and_append (x₂ := BitVec.allOnes 8) (y₂ := 0x00#8)
      _ = word 0x00#8 h := by rw [BitVec.and_zero, BitVec.and_allOnes]; rfl
  apply BitVec.eq_of_toNat_eq
  rw [hpage, BitVec.toNat_add, toNat_word, toNat_word]
  simp only [BitVec.toNat_ofNat]
  omega

namespace Machine

/-- `base + index` mod 65536, crossed when the page number changes (R73, R74, R77). -/
theorem indexed_toNat (mode : Mode) (base : Addr) (index : Byte) :
    (indexed mode base index).ea.toNat = (base.toNat + index.toNat) % 65536 ∧
    (indexed mode base index).crossed = decide (base.toNat / 256 ≠ (base.toNat + index.toNat) % 65536 / 256) := by
  have hea : (base + zext16 index).toNat = (base.toNat + index.toNat) % 65536 := by
    rw [BitVec.toNat_add, toNat_zext16]
  refine ⟨hea, ?_⟩
  rw [← hea, Bool.eq_iff_iff, decide_eq_true_eq]
  exact pageCrossed_iff ..

/-- The high byte of a JMP pointer comes from the pointer's own page (R75, D5). -/
theorem quirkHigh_eq (w : Addr) : quirkHigh w = (w &&& 0xFF00#16) + BitVec.ofNat 16 ((w.toNat + 1) % 256) := by
  have hlow : lo w + 1 = BitVec.ofNat 8 (w.toNat + 1) := by
    simp [lo, BitVec.ofNat_add, ← BitVec.setWidth_eq_extractLsb', BitVec.ofNat_toNat]
  conv_rhs => rw [← word_lo_hi w]
  rw [and_page_add, word_lo_hi, ← hlow]
  rfl

/-- The word a pointer in page 0 holds, by number: the high byte's address wraps in page 0 (R76, R77). -/
theorem State.toNat_zeroPageWord (s : State) (b : Byte) : (s.zeroPageWord b).toNat =
    (s.read (BitVec.ofNat 16 b.toNat)).toNat + 256 * (s.read (BitVec.ofNat 16 ((b.toNat + 1) % 256))).toNat := by
  rw [State.zeroPageWord, State.readWord, toNat_word, zext16_eq_ofNat, zext16_eq_ofNat, BitVec.toNat_add]
  rfl

theorem resolve_ind_ea (s : State) (w : Addr) : (resolve (.ind w) s).ea.toNat =
    (s.read w).toNat + 256 * (s.read ((w &&& 0xFF00#16) + BitVec.ofNat 16 ((w.toNat + 1) % 256))).toNat := by
  rw [← quirkHigh_eq]
  exact toNat_word _ _

/-- The three modes with a 16-bit base and an index are the only ones whose resolver compares pages (R80). -/
theorem mode_of_crossed {o : Operand} {s : State} (h : (resolve o s).crossed = true) :
    o.mode ∈ [Mode.abx, .aby, .izy] := by
  cases o with
  | abx w | aby w | izy b => simp [Operand.mode]
  | _ => cases h

end Machine

namespace Machine.Claims

/-- Settles O15: the sum of bytes is taken mod 256 before it becomes an address. -/
theorem zeroPageModesWrapInPageZero : Obligations.ZeroPageModesWrapInPageZero := by
  intro s b
  refine ⟨toNat_zext16 b, ?_, ?_, rfl, rfl, rfl⟩ <;> exact (toNat_zext16 _).trans (BitVec.toNat_add ..)

/-- Settles O16, by `indexed_toNat` at X and at Y. -/
theorem absoluteModesIndexMod65536 : Obligations.AbsoluteModesIndexMod65536 := by
  intro s w
  obtain ⟨hx, hxc⟩ := indexed_toNat .abx w s.x
  obtain ⟨hy, hyc⟩ := indexed_toNat .aby w s.y
  exact ⟨rfl, rfl, hx, hy, hxc, hyc⟩

/-- Settles O17: the JMP pointer by `resolve_ind_ea`, the zero-page pointers by `toNat_zeroPageWord`. -/
theorem pointerModesWrap : Obligations.PointerModesWrap := by
  refine fun s => ⟨fun w => ⟨resolve_ind_ea s w, rfl⟩, fun b => ⟨⟨?_, rfl⟩, ?_⟩⟩
  · exact (s.toNat_zeroPageWord (b + s.x)).trans (by rw [BitVec.toNat_add])
  · intro base
    have hbase : (s.zeroPageWord b).toNat = base := s.toNat_zeroPageWord b
    rw [← hbase]
    exact indexed_toNat .izy (s.zeroPageWord b) s.y

/-- Settles O18, mode by mode: `readOperand` and `writeOperand` look at the mode alone. -/
theorem operandAccessByMode : Obligations.OperandAccessByMode := by
  refine fun s v => ⟨rfl, rfl, fun _ => rfl, fun o ho => ?_⟩
  cases o with
  | imp | acc | imm _ | rel _ | ind _ => simp [Operand.mode] at ho
  | _ => exact ⟨rfl, rfl⟩

/-- Settles O19: `mode_of_crossed`, and `mode_of_pagePenalty` at the entry of the instruction. -/
theorem onlyIndexedModesCross : Obligations.OnlyIndexedModesCross := by
  refine ⟨fun _ _ => mode_of_crossed, fun i hwf hpenalty => ?_⟩
  by_cases hu : ∀ op, i ≠ .undefined op
  · obtain ⟨e, hop, hmode, hcost⟩ := exists_entry hu
    rw [hmode]
    exact mode_of_pagePenalty hop (by simpa [hcost] using hpenalty)
  · obtain ⟨op, rfl⟩ : ∃ op, i = .undefined op := by simpa using hu
    have hop : dispatch op = none := (dispatch_eq_none_iff op).2 (List.contains_iff_mem.1 hwf)
    simp [Instr.cost, Instr.opcode, hop] at hpenalty

end Machine.Claims

end Sys2Proof

/-! ## Memory as a function (20_memory.md R35; 00_scope.md R7) -/

namespace Sys2Proof.Machine

/-- In a canonical memory a listed byte is what its address reads as. -/
theorem Memory.read_of_mem {m : Memory} (hm : m.wf) {c : Host.Cell} (hc : c ∈ m) {a : Addr} (ha : c.1 = a.toNat) :
    m.read a = c.2 := by
  obtain ⟨rising, cells⟩ := hm
  clear cells
  induction m with
  | nil => cases hc
  | cons d m ih =>
    rw [List.pairwise_cons] at rising
    obtain rfl | hmem := List.mem_cons.1 hc
    · simp [Memory.read, ha]
    · have hne : d.1 ≠ a.toNat := by have := rising.1 c hmem; omega
      rw [Memory.read, if_neg hne, ih hmem rising.2]

theorem Memory.read_of_not_mem {m : Memory} {a : Addr} (h : ∀ c ∈ m, c.1 ≠ a.toNat) :
    m.read a = Config.unlistedByte := by
  induction m with
  | nil => rfl
  | cons d m ih =>
    rw [Memory.read, if_neg (h d List.mem_cons_self), ih fun c hc => h c (List.mem_cons_of_mem d hc)]

/-- A canonical memory lists exactly the bytes that differ from what an unlisted address reads as. -/
theorem Memory.mem_iff_read {m : Memory} (hm : m.wf) (c : Host.Cell) :
    c ∈ m ↔ c.1 < Config.memorySize ∧ c.2 ≠ Config.unlistedByte ∧ m.read (BitVec.ofNat 16 c.1) = c.2 := by
  have haddr {k : Nat} (hk : k < Config.memorySize) : (BitVec.ofNat 16 k).toNat = k := Nat.mod_eq_of_lt hk
  constructor
  · intro hc
    obtain ⟨hlt, hne⟩ := hm.2 c hc
    exact ⟨hlt, hne, Memory.read_of_mem hm hc (haddr hlt).symm⟩
  · rintro ⟨hlt, hne, hread⟩
    by_contra hc
    refine hne (hread.symm.trans (Memory.read_of_not_mem fun d hd hda => hc ?_))
    have hdread : m.read (BitVec.ofNat 16 c.1) = d.2 := Memory.read_of_mem hm hd hda
    obtain rfl : d = c := Prod.ext (hda.trans (haddr hlt)) (hdread.symm.trans hread)
    exact hd

/-- Canonical memories that read alike are the same list. -/
theorem Memory.eq_of_read_eq {m n : Memory} (hm : m.wf) (hn : n.wf) (h : ∀ a, m.read a = n.read a) : m = n := by
  have hirrefl : Std.Irrefl fun c d : Host.Cell => c.1 < d.1 := ⟨fun c => Nat.lt_irrefl c.1⟩
  have hanti : Std.Antisymm fun c d : Host.Cell => c.1 < d.1 := ⟨fun c d h h' => absurd h (Nat.lt_asymm h')⟩
  exact hm.1.eq_of_mem_iff hn.1 fun c => by rw [Memory.mem_iff_read hm, Memory.mem_iff_read hn, h]

/-- The canonical memory of a byte function: all addresses in order, without the bytes an unlisted address reads as. -/
def Memory.ofFun (f : Addr → Byte) : Memory :=
  ((List.range Config.memorySize).map fun k => (k, f (BitVec.ofNat 16 k))).filter fun c => c.2 != Config.unlistedByte

theorem Memory.mem_ofFun (f : Addr → Byte) (c : Host.Cell) : c ∈ Memory.ofFun f ↔
    c.1 < Config.memorySize ∧ c.2 ≠ Config.unlistedByte ∧ f (BitVec.ofNat 16 c.1) = c.2 := by
  obtain ⟨k, v⟩ := c
  simp only [Memory.ofFun, List.mem_filter, List.mem_map, List.mem_range, Prod.mk.injEq, bne_iff_ne]
  constructor
  · rintro ⟨⟨_, hk, rfl, rfl⟩, hv⟩
    exact ⟨hk, hv, rfl⟩
  · rintro ⟨hk, hv, hf⟩
    exact ⟨⟨k, hk, rfl, hf⟩, hv⟩

theorem Memory.wf_ofFun (f : Addr → Byte) : (Memory.ofFun f).wf := by
  refine ⟨.filter _ (List.pairwise_map.2 List.pairwise_lt_range), fun c hc => ?_⟩
  obtain ⟨hlt, hne, -⟩ := (Memory.mem_ofFun f c).1 hc
  exact ⟨hlt, hne⟩

theorem Memory.read_ofFun (f : Addr → Byte) (a : Addr) : (Memory.ofFun f).read a = f a := by
  have hself : BitVec.ofNat 16 a.toNat = a := by simp
  by_cases hv : f a = Config.unlistedByte
  · rw [hv]
    refine Memory.read_of_not_mem fun c hc hca => ?_
    obtain ⟨-, hne, hf⟩ := (Memory.mem_ofFun f c).1 hc
    rw [hca, hself] at hf
    exact hne (hf.symm.trans hv)
  · have hc : (a.toNat, f a) ∈ Memory.ofFun f := (Memory.mem_ofFun f _).2 ⟨a.isLt, hv, by rw [hself]⟩
    exact Memory.read_of_mem (Memory.wf_ofFun f) hc rfl

/-- The loader's later entries win, so an address listed with one byte only reads that byte (R156). -/
theorem Memory.read_ofCells {cells : List (Addr × Byte)} {a : Addr} {v : Byte} (h : (a, v) ∈ cells)
    (hone : ∀ w, (a, w) ∈ cells → w = v) : (Memory.ofCells cells).read a = v := by
  induction cells using List.reverseRecOn with
  | nil => cases h
  | append_singleton cells c ih =>
    rw [Memory.ofCells, List.foldl_append, List.foldl_cons, List.foldl_nil, Memory.read_write]
    by_cases ha : a = c.1
    · rw [if_pos ha]
      exact hone c.2 (by simp [ha])
    · rw [if_neg ha]
      have hmem : (a, v) ∈ cells := by
        obtain hmem | hlast := List.mem_append.1 h
        · exact hmem
        · exact absurd (congrArg Prod.fst (List.mem_singleton.1 hlast)) ha
      exact ih hmem fun w hw => hone w (List.mem_append_left _ hw)

end Sys2Proof.Machine

namespace Sys2Proof.Machine.Claims

/-- Settles O1: `Memory.ofFun` is such a memory, and `Memory.eq_of_read_eq` the only one. -/
theorem everyByteFunctionIsOneMemory : Obligations.EveryByteFunctionIsOneMemory :=
  fun f => ⟨Memory.ofFun f, ⟨Memory.wf_ofFun f, Memory.read_ofFun f⟩, fun _ hn hread =>
    Memory.eq_of_read_eq hn (Memory.wf_ofFun f) fun a => (hread a).trans (Memory.read_ofFun f a).symm⟩

/-- Settles O57: the launch by its test on bit 5, the loaded bytes by `Memory.read_ofCells`. -/
theorem launchHoldsParametersOrIsRefused : Obligations.LaunchHoldsParametersOrIsRefused := by
  refine fun l => ⟨fun hbit => ?_, fun hbit => ?_⟩
  · exact ⟨_, if_pos hbit, ⟨hbit, Memory.wf_ofCells l.initMem⟩, rfl, rfl, rfl, rfl, rfl, rfl, rfl,
      fun _ _ => Memory.read_ofCells⟩
  · exact if_neg (Bool.eq_false_iff.1 hbit)

/-- Settles O58: every move of a running session by its own arm, and a step is never anything but a next state. -/
theorem hostMovesDuringRunAreRefused : Obligations.HostMovesDuringRunAreRefused := by
  refine ⟨fun s m hm => ?_, fun s => ?_, fun s => rfl⟩
  · cases m with
    | connect cells => exact .inl rfl
    | place a v | seed r v => exact .inr rfl
    | step => exact absurd rfl hm
  · obtain ⟨t, hstep, -⟩ := stepIsTotal s
    exact ⟨t, hstep, by simp only [HostSession.act, hstep], by simp only [HostSession.act, hstep]⟩

end Sys2Proof.Machine.Claims

/-! ## Pushes and pulls in a row (20_memory.md R44) -/

namespace Sys2Proof.Machine.Claims

theorem pushMany_append_singleton (s : State) (vs : List Byte) (v : Byte) :
    pushMany s (vs ++ [v]) = (pushMany s vs).push v := by
  simp [pushMany]

theorem sp_pushMany (s : State) (vs : List Byte) : (pushMany s vs).sp = s.sp - BitVec.ofNat 8 vs.length := by
  induction vs using List.reverseRecOn with
  | nil => simp [pushMany]
  | append_singleton vs v ih =>
    rw [pushMany_append_singleton, State.push_sp, ih, List.length_append, List.length_singleton]
    bv_omega

/-- A pull does not see a byte stored outside the slot it reads. -/
theorem pull_write {s : State} {a : Addr} (h : stackAddr (s.sp + 1) ≠ a) (v : Byte) :
    (s.write a v).pull = (s.pull.1, s.pull.2.write a v) :=
  Prod.ext ((State.read_write ..).trans (if_neg h)) rfl

/-- Nor do `n` pulls see one outside the `n` slots above SP. -/
theorem pullMany_write {n : Nat} {s : State} {a : Addr} (h : ∀ k < n, stackAddr (s.sp + 1 + BitVec.ofNat 8 k) ≠ a)
    (v : Byte) : pullMany n (s.write a v) = ((pullMany n s).1, (pullMany n s).2.write a v) := by
  induction n generalizing s with
  | zero => rfl
  | succ n ih =>
    have hfirst : stackAddr (s.sp + 1) ≠ a := by simpa using h 0 (by omega)
    have hrest : ∀ k < n, stackAddr (s.pull.2.sp + 1 + BitVec.ofNat 8 k) ≠ a := fun k hk => by
      have hslot : s.pull.2.sp + 1 + BitVec.ofNat 8 k = s.sp + 1 + BitVec.ofNat 8 (k + 1) := by
        rw [State.pull_snd_sp]
        bv_omega
      rw [hslot]
      exact h (k + 1) (by omega)
    rw [pullMany, pull_write hfirst, ih hrest]
    rfl

/-- The first pull gives back what the last push stored, and leaves that byte where it was. -/
theorem pull_push (s : State) (v : Byte) : (s.push v).pull = (v, s.write (stackAddr s.sp) v) := by
  have hsp : s.sp - 1 + 1 = s.sp := BitVec.sub_add_cancel ..
  refine Prod.ext ?_ ?_
  · rw [State.pull_fst, State.push_sp, hsp, State.read_push, if_pos rfl]
  · exact congrArg (fun sp => { s.write (stackAddr s.sp) v with sp := sp }) hsp

/-- After a push, the pulls that follow the first are those of the state before it, up to 255 of them: they do not come
round to the pushed byte's slot. -/
theorem pullMany_push {n : Nat} (hn : n < 256) (s : State) (v : Byte) : pullMany (n + 1) (s.push v) =
    (v :: (pullMany n s).1, (pullMany n s).2.write (stackAddr s.sp) v) := by
  have hslots : ∀ k < n, stackAddr (s.sp + 1 + BitVec.ofNat 8 k) ≠ stackAddr s.sp := fun k hk => by
    rw [ne_eq, stackAddr_inj]
    bv_omega
  rw [pullMany, pull_push, pullMany_write hslots]

theorem frame_write {rs : List Reg} {fs : List Flag} {stored : List Addr} {s t : State} (h : Frame rs fs stored s t)
    (a : Addr) (v : Byte) : Frame rs fs (stored ++ [a]) s (t.write a v) := by
  obtain ⟨hregs, ⟨hflags, hbit5⟩, hmem, hmark⟩ := h
  refine ⟨fun q hq => ?_, ⟨fun g hg => ?_, ?_⟩, fun b hb => ?_, hmark⟩
  · rw [State.reg_write, hregs q hq]
  · rw [State.flag_write, hflags g hg]
  · rw [State.bit5_write, hbit5]
  · obtain ⟨hstored, hne⟩ : b ∉ stored ∧ b ≠ a := by simpa using hb
    rw [State.read_write, if_neg hne, hmem b hstored]

/-- Settles O4, by induction on the pushed bytes from the last one: `pullMany_push` peels off the last push and the
first pull. -/
theorem pushesThenPullsReturnReversed : Obligations.PushesThenPullsReturnReversed := by
  intro s vs
  induction vs using List.reverseRecOn with
  | nil => exact fun _ => ⟨rfl, frame_refl⟩
  | append_singleton vs v ih =>
    intro hlength
    rw [List.length_append, List.length_singleton] at hlength ⊢
    obtain ⟨hbytes, hframe⟩ := ih (by omega)
    have hslot : stackAddr (pushMany s vs).sp = stackBelow s.sp vs.length := by
      rw [sp_pushMany, stackBelow_eq_stackAddr _ (by omega)]
    rw [pushMany_append_singleton, pullMany_push (by omega), hbytes, hslot, List.range_succ, List.map_append]
    exact ⟨List.reverse_concat.symm, frame_write hframe _ v⟩

end Sys2Proof.Machine.Claims

/-! ## What the shared meanings set and report (R27, R161) -/

namespace Sys2Proof.Machine.Claims

variable {i : Instr} {s : State}

theorem setsNZ_finish (v : Byte) (t : State) (crossed : Bool) (extra : Nat) :
    SetsNZ v (t.finish i crossed extra) ↔ SetsNZ v t := by
  simp [SetsNZ]

theorem reportsCost_finish (t : State) : ReportsCost i s (t.finish i (resolve i.operand s).crossed 0) := by
  by_cases h : i.cost.pagePenalty = true ∧ crossedOf i s = true
  · rw [ReportsCost, if_pos h]
    obtain ⟨hpenalty, hcrossed⟩ := h
    rw [crossedOf] at hcrossed
    simp [cycles, hpenalty, hcrossed]
  · rw [ReportsCost, if_neg h]
    rw [crossedOf, ← Bool.and_eq_true] at h
    simp [cycles, h]

/-- A row without page penalty reports its base cycles, crossed or not (R161, R162). -/
theorem outcome_finish_of_fixed (h : i.cost.pagePenalty = false) (t : State) (crossed : Bool) :
    (t.finish i crossed 0).outcome = .ok i.cost.base := by
  simp [cycles, h]

/-- The rows of two cycles and no penalty. -/
theorem outcome_finish_two (h : i.cost = ⟨2, false⟩) (t : State) : (t.finish i false 0).outcome = .ok 2 := by
  simp [cycles, h]

/-- The instructions that write their result back: no row of theirs has a page penalty (R162). -/
inductive WritesBack : Instr → Prop
  | sta (f) : WritesBack (.sta f)
  | stx (f) : WritesBack (.stx f)
  | sty (f) : WritesBack (.sty f)
  | inc (f) : WritesBack (.inc f)
  | dec (f) : WritesBack (.dec f)
  | asl (f) : WritesBack (.asl f)
  | lsr (f) : WritesBack (.lsr f)
  | rol (f) : WritesBack (.rol f)
  | ror (f) : WritesBack (.ror f)

theorem WritesBack.fixed_cost (h : WritesBack i) : i.cost.pagePenalty = false := by
  cases h with
  | _ f => cases f <;> simp only [Instr.cost, Instr.opcode] <;> exact rfl

/-! ## Loads and stores (41_load_store.md R81 to R86) -/

theorem loads_of_exec {r : Reg} (h : exec i s = loadInto i r s) : Loads i r s := by
  refine ⟨_, h, by simp [operandOf], ?_, by simp, reportsCost_finish _, ?_⟩
  · rw [setsNZ_finish]
    exact setsNZ_setNZ ..
  · exact (updates_loadInto (p := ⟨[r], [.n, .z], [], False, False⟩) rfl (.head _) (.refl _)).frame id ⟨.v, by simp⟩

theorem stores_of_exec {r : Reg} (h : exec i s = storeFrom i r s) (hi : WritesBack i) :
    Stores i r s := by
  refine ⟨_, h, by simp [eaOf], by simp, outcome_finish_of_fixed hi.fixed_cost .., ?_⟩
  exact (updates_storeFrom (p := ⟨[], [], [eaOf i s], False, False⟩) rfl (.head _)).frame id ⟨.v, by simp⟩

/-- Settles O20: each of the three runs `loadInto`. -/
theorem loadsCopyTheOperand : Obligations.LoadsCopyTheOperand :=
  fun _ => ⟨fun _ => loads_of_exec rfl, fun _ => loads_of_exec rfl, fun _ => loads_of_exec rfl⟩

/-- Settles O21: each of the three runs `storeFrom`, and no row of theirs is penalised. -/
theorem storesWriteOneByte : Obligations.StoresWriteOneByte :=
  fun _ => ⟨fun f => stores_of_exec rfl (.sta f), fun f => stores_of_exec rfl (.stx f),
    fun f => stores_of_exec rfl (.sty f)⟩

/-! ## Compare, increment, decrement (44_compare_incdec.md R98 to R106) -/

theorem setsCompare_finish (r m : Byte) (t : State) (crossed : Bool) (extra : Nat) :
    SetsCompare r m (t.finish i crossed extra) ↔ SetsCompare r m t := by
  simp [SetsCompare]

theorem compares_of_exec {r : Reg} (h : exec i s = compareReg i r s) : Compares i r s := by
  refine ⟨_, h, ?_, by simp, reportsCost_finish _, ?_⟩
  · rw [setsCompare_finish]
    exact setsCompare_compare ..
  · rw [frame_finish]
    exact frame_compare ..

/-- A byte stepped mod 256 is the integer stepped, taken mod 256. -/
theorem ofInt_toNat_add (v : Byte) (delta : Int) : BitVec.ofInt 8 (v.toNat + delta) = v + BitVec.ofInt 8 delta := by
  simp [BitVec.ofInt_add]

theorem stepsMemory_of_exec {delta : Int} (h : exec i s = stepMemory i (BitVec.ofInt 8 delta) s)
    (hi : WritesBack i) : StepsMemory i delta s := by
  rw [StepsMemory, ofInt_toNat_add]
  refine ⟨_, h, by simp [eaOf], ?_, by simp, outcome_finish_of_fixed hi.fixed_cost .., ?_⟩
  · rw [setsNZ_finish]
    exact setsNZ_setNZ ..
  · exact (updates_stepMemory (p := ⟨[], [.n, .z], [eaOf i s], False, False⟩) rfl (.head _) (.refl _)).frame id
      ⟨.v, by simp⟩

/-- An instruction that sets a register with its Z and N in 2 cycles: a step of X or Y, or a transfer. -/
theorem setsReg_of_exec {r : Reg} {v : Byte} (h : exec i s = .next (((s.setReg r v).setNZ v).finish i false 0))
    (hcost : i.cost = ⟨2, false⟩) : SetsReg i r v s := by
  refine ⟨_, h, by simp, ?_, by simp, outcome_finish_two hcost _, ?_⟩
  · rw [setsNZ_finish]
    exact setsNZ_setNZ ..
  · have hupdates : Updates ⟨[r], [.n, .z], [], False, False⟩ s (((s.setReg r v).setNZ v).finish i false 0) :=
      ((Updates.refl.setReg v (.head _)).setNZ v (.refl _)).finish ..
    exact hupdates.frame id ⟨.v, by simp⟩

/-- Settles O29: each of the three runs `compareReg`. -/
theorem compareInstructions : Obligations.CompareInstructions :=
  fun _ => ⟨fun _ => compares_of_exec rfl, fun _ => compares_of_exec rfl, fun _ => compares_of_exec rfl⟩

/-- Settles O30: both run `stepMemory`, and no row of theirs is penalised. -/
theorem incDecStepMemory : Obligations.IncDecStepMemory :=
  fun _ f => ⟨stepsMemory_of_exec rfl (.inc f), stepsMemory_of_exec rfl (.dec f)⟩

/-- Settles O31: each runs `stepReg`, whose sum mod 256 is the integer step's. -/
theorem incDecStepRegisters : Obligations.IncDecStepRegisters := by
  intro s
  simp only [sub_eq_add_neg, ofInt_toNat_add]
  exact ⟨setsReg_of_exec rfl rfl, setsReg_of_exec rfl rfl, setsReg_of_exec rfl rfl, setsReg_of_exec rfl rfl⟩

/-! ## Flags, transfers, BIT, NOP, BRK (48_flags_transfer.md, 49_bit_control_break.md) -/

theorem writesFlag_of_exec {f : Flag} {v : Bool} (h : exec i s = writeFlag i f v s) (hcost : i.cost = ⟨2, false⟩) :
    WritesFlag i f v s := by
  refine ⟨_, h, by simp [State.flag_setFlag], by simp, outcome_finish_two hcost _, ?_⟩
  refine (updates_writeFlag (p := ⟨[], [f], [], False, False⟩) rfl (.head _)).frame id ?_
  cases f with
  | n => exact ⟨.v, by simp⟩
  | _ => exact ⟨.n, by simp⟩

/-- Settles O41: each of the seven runs `writeFlag` on its flag, in 2 cycles. -/
theorem flagInstructionsWriteOneFlag : Obligations.FlagInstructionsWriteOneFlag :=
  fun _ => ⟨writesFlag_of_exec rfl rfl, writesFlag_of_exec rfl rfl, writesFlag_of_exec rfl rfl,
    writesFlag_of_exec rfl rfl, writesFlag_of_exec rfl rfl, writesFlag_of_exec rfl rfl, writesFlag_of_exec rfl rfl⟩

/-- Settles O42: five run `transfer`; TXS by its own updates, the flags being outside its row. -/
theorem transfersCopyRegisters : Obligations.TransfersCopyRegisters :=
  fun _ => ⟨setsReg_of_exec rfl rfl, setsReg_of_exec rfl rfl, setsReg_of_exec rfl rfl, setsReg_of_exec rfl rfl,
    setsReg_of_exec rfl rfl, _, rfl, rfl, rfl, rfl, frame_exec (i := .txs) rfl (by simp) (by simp) (by simp)⟩

/-- Settles O43: the three flags by their bits of the operand, what is kept by BIT's rows. -/
theorem bitTestsOperand : Obligations.BitTestsOperand := by
  intro s f m
  refine ⟨_, rfl, ?_, ?_, ?_, rfl, ?_, frame_exec (i := .bit f) rfl (by simp) (by simp) (by simp)⟩
  · simp [State.flag_setFlag, m, operandOf, Instr.operand]
  · simp [State.flag_setFlag, m, operandOf, Instr.operand]
  · simp [State.flag_setFlag, m, operandOf, Instr.operand, beq_eq_decide, BitVec.toNat_eq]
  · cases f <;> simp only [State.finish_outcome, Instr.cost, Instr.opcode] <;> exact rfl

/-- Settles O44: NOP only reports, BRK sets B. -/
theorem nopAndBrkEffects : Obligations.NopAndBrkEffects :=
  fun s => ⟨⟨_, rfl, rfl, rfl, frame_exec (i := .nop) rfl (by simp) (by simp) (by simp)⟩,
    ⟨_, rfl, by simp [State.flag_setFlag], rfl, rfl, frame_exec (i := .brk) rfl (by simp) (by simp) (by simp)⟩⟩

end Sys2Proof.Machine.Claims

/-! ## ADC, SBC and logic (42_arithmetic_logic.md R88 to R92): the ALU sums, their carry, both tests of the overflow -/

namespace Sys2Proof.Machine

open Claims

/-- The two readings of a byte: from 128 on the signed one is 256 less. -/
theorem signed_cases (v : Byte) :
    (v.toNat < 128 ∧ v.toInt = v.toNat) ∨ (128 ≤ v.toNat ∧ v.toInt = v.toNat - 256) := by
  rw [BitVec.toInt_eq_toNat_cond]
  split <;> omega

theorem msb_eq_128_le (v : Byte) : v.msb = decide (128 ≤ v.toNat) := BitVec.msb_eq_decide v

/-- The sign of the sum differs from that of both summands exactly when the signed sum lies outside a byte (R88). -/
theorem overflow_add {a m r : Byte} {c : Nat} (hc : c ≤ 1) (hr : r.toNat = (a.toNat + m.toNat + c) % 256) :
    ((a ^^^ r) &&& (m ^^^ r)).msb = decide (a.toInt + m.toInt + c < -128 ∨ 127 < a.toInt + m.toInt + c) := by
  have ha := signed_cases a
  have hm := signed_cases m
  rw [BitVec.msb_and, BitVec.msb_xor, BitVec.msb_xor, msb_eq_128_le, msb_eq_128_le, msb_eq_128_le, Bool.eq_iff_iff]
  simp only [Bool.and_eq_true, bne_iff_ne, ne_eq, decide_eq_decide, decide_eq_true_eq]
  omega

/-- The signs of minuend and subtrahend differ, and the result's from the minuend's, exactly when the signed difference
lies outside a byte (R89). -/
theorem overflow_sub {a m r : Byte} {b : Nat} (hb : b ≤ 1) (hr : r.toNat = (a.toNat + 256 - m.toNat - b) % 256) :
    ((a ^^^ m) &&& (a ^^^ r)).msb = decide (a.toInt - m.toInt - b < -128 ∨ 127 < a.toInt - m.toInt - b) := by
  have ha := signed_cases a
  have hm := signed_cases m
  have hlt := m.isLt
  rw [BitVec.msb_and, BitVec.msb_xor, BitVec.msb_xor, msb_eq_128_le, msb_eq_128_le, msb_eq_128_le, Bool.eq_iff_iff]
  simp only [Bool.and_eq_true, bne_iff_ne, ne_eq, decide_eq_decide, decide_eq_true_eq]
  omega

/-- Masking with 0x80 looks at the sign bit. -/
theorem and_sign_ne_zero (v : Byte) : (v &&& 0x80#8 != 0#8) = v.msb := by
  revert v
  decide

theorem bne_eq_decide_ne (v w : Byte) : (v != w) = decide (v ≠ w) := by simp [bne, beq_eq_decide]

theorem bitOf_eq_toNat (b : Bool) : bitOf b = b.toNat := by cases b <;> rfl

theorem bitOf_le_one (b : Bool) : bitOf b ≤ 1 := by cases b <;> decide

/-! ADC's sum (R88) -/

section

variable (a m : Byte) (c : Bool)

theorem value_addWithCarry : (addWithCarry a m c).value = BitVec.ofNat 8 ((a.toNat + m.toNat + bitOf c) % 256) := by
  rw [bitOf_eq_toNat]
  exact BitVec.eq_of_toNat_eq (by simp [addWithCarry])

theorem carry_addWithCarry : (addWithCarry a m c).carry = decide (a.toNat + m.toNat + bitOf c > 255) := by
  rw [bitOf_eq_toNat]
  rfl

theorem overflow_addWithCarry : (addWithCarry a m c).overflow =
    ((a ^^^ (addWithCarry a m c).value) &&& (m ^^^ (addWithCarry a m c).value)).msb := and_sign_ne_zero _

theorem overflow_addWithCarry_signed : (addWithCarry a m c).overflow =
    decide (a.toInt + m.toInt + bitOf c < -128 ∨ 127 < a.toInt + m.toInt + bitOf c) := by
  rw [overflow_addWithCarry]
  exact overflow_add (bitOf_le_one c) (by simp [value_addWithCarry])

/-! SBC's difference (R89): `255 − M + C` is `256 − M − (1 − C)` -/

theorem sub_sum_eq : a.toNat + (255 - m.toNat) + c.toNat = a.toNat + 256 - m.toNat - (1 - bitOf c) := by
  have hm := m.isLt
  cases c <;> simp [bitOf] <;> omega

theorem value_subWithBorrow : (subWithBorrow a m c).value =
    BitVec.ofInt 8 ((a.toNat : Int) - m.toNat - ↑(1 - bitOf c)) := by
  have hm := m.isLt
  apply BitVec.eq_of_toNat_eq
  simp only [subWithBorrow, sub_sum_eq, BitVec.toNat_ofNat, BitVec.toNat_ofInt]
  omega

theorem carry_subWithBorrow : (subWithBorrow a m c).carry = decide (a.toNat ≥ m.toNat + (1 - bitOf c)) := by
  have hm := m.isLt
  simp only [subWithBorrow, sub_sum_eq, decide_eq_decide]
  omega

theorem overflow_subWithBorrow : (subWithBorrow a m c).overflow =
    ((a ^^^ m) &&& (a ^^^ (subWithBorrow a m c).value)).msb := and_sign_ne_zero _

theorem overflow_subWithBorrow_signed : (subWithBorrow a m c).overflow =
    decide (a.toInt - m.toInt - ↑(1 - bitOf c) < -128 ∨ 127 < a.toInt - m.toInt - ↑(1 - bitOf c)) := by
  rw [overflow_subWithBorrow]
  exact overflow_sub (Nat.sub_le ..) (by simp [subWithBorrow, sub_sum_eq])

end

end Sys2Proof.Machine

namespace Sys2Proof.Machine.Claims

variable {i : Instr} {s : State}

theorem ComputesA.imp {fs : List Flag} {r : Byte} {flags flags' : State → Prop} (h : ComputesA i fs s r flags)
    (himp : ∀ t, flags t → flags' t) : ComputesA i fs s r flags' := by
  obtain ⟨t, hexec, ha, hnz, hflags, hrest⟩ := h
  exact ⟨t, hexec, ha, hnz, himp t hflags, hrest⟩

theorem computesA_of_arithmetic {alu : Byte → Byte → Bool → AluResult} (h : exec i s = arithmetic i alu s) :
    ComputesA i [.n, .v, .z, .c] s (alu s.a (operandOf i s) (s.flag .c)).value fun t =>
      t.flag .c = (alu s.a (operandOf i s) (s.flag .c)).carry ∧
      t.flag .v = (alu s.a (operandOf i s) (s.flag .c)).overflow := by
  refine ⟨_, h, rfl, ?_, ⟨?_, ?_⟩, by simp, reportsCost_finish _, ?_⟩
  · rw [setsNZ_finish]
    exact setsNZ_setNZ ..
  · simp [State.flag_setNZ, State.flag_setFlag, operandOf]
  · simp [State.flag_setNZ, State.flag_setFlag, operandOf]
  · exact (updates_arithmetic (p := ⟨[.a], [.n, .v, .z, .c], [], False, False⟩) rfl (.head _) (.refl _)).frame id
      ⟨.d, by simp⟩

theorem computesA_of_logic {op : Byte → Byte → Byte} (h : exec i s = logic i op s) :
    ComputesA i [.n, .z] s (op s.a (operandOf i s)) fun _ => True := by
  refine ⟨_, h, rfl, ?_, trivial, by simp, reportsCost_finish _, ?_⟩
  · rw [setsNZ_finish]
    exact setsNZ_setNZ ..
  · exact (updates_logic (p := ⟨[.a], [.n, .z], [], False, False⟩) rfl (.head _) (.refl _)).frame id ⟨.d, by simp⟩

/-- Settles O22: `arithmetic` with the sum of `addWithCarry`. -/
theorem adcAddsWithCarry : Obligations.AdcAddsWithCarry := by
  intro s f m sum r
  have hr : r = (addWithCarry s.a m (s.flag .c)).value := (value_addWithCarry ..).symm
  rw [hr]
  refine ComputesA.imp (computesA_of_arithmetic rfl) fun t ⟨hc, hv⟩ => ⟨?_, ?_, ?_⟩
  · exact hc.trans (carry_addWithCarry ..)
  · exact hv.trans (overflow_addWithCarry_signed ..)
  · exact hv.trans (bne_eq_decide_ne ..)

/-- Settles O23: `arithmetic` with the difference of `subWithBorrow`. -/
theorem sbcSubtractsWithBorrow : Obligations.SbcSubtractsWithBorrow := by
  intro s f m borrow r
  have hr : r = (subWithBorrow s.a m (s.flag .c)).value := (value_subWithBorrow ..).symm
  rw [hr]
  refine ComputesA.imp (computesA_of_arithmetic rfl) fun t ⟨hc, hv⟩ => ⟨?_, ?_, ?_⟩
  · exact hc.trans (carry_subWithBorrow ..)
  · exact hv.trans (overflow_subWithBorrow_signed ..)
  · exact hv.trans (bne_eq_decide_ne ..)

/-- Settles O24: each of the three runs `logic` on its own bitwise operation. -/
theorem logicCombinesBitwise : Obligations.LogicCombinesBitwise :=
  fun _ _ => ⟨⟨_, fun _ => BitVec.getLsbD_and, computesA_of_logic rfl⟩,
    ⟨_, fun _ => BitVec.getLsbD_or, computesA_of_logic rfl⟩,
    ⟨_, fun _ => BitVec.getLsbD_xor, computesA_of_logic rfl⟩⟩

end Sys2Proof.Machine.Claims

/-! ## Shifts and rotates (43_shift_rotate.md R93 to R96) -/

namespace Sys2Proof.Machine

open Claims

/-- The results as numbers, over the 256 operands and both carries. -/
theorem toNat_result_asl (v : Byte) (c : Bool) : (ShiftKind.asl.result v c).toNat = 2 * v.toNat % 256 := by
  revert v c
  decide

theorem toNat_result_lsr (v : Byte) (c : Bool) : (ShiftKind.lsr.result v c).toNat = v.toNat / 2 := by
  revert v c
  decide

theorem toNat_result_rol (v : Byte) (c : Bool) : (ShiftKind.rol.result v c).toNat = 2 * v.toNat % 256 + bitOf c := by
  revert v c
  decide

theorem toNat_result_ror (v : Byte) (c : Bool) : (ShiftKind.ror.result v c).toNat = v.toNat / 2 + 128 * bitOf c := by
  revert v c
  decide

@[simp] theorem State.writeOperand_pc (s : State) (ctx : Ctx) (v : Byte) : (s.writeOperand ctx v).pc = s.pc := by
  rcases s.writeOperand_cases ctx v with ⟨_, e⟩ | ⟨_, e⟩ <;> rw [e] <;> simp

/-- A result written to memory stands at EA (R79). -/
theorem State.read_writeOperand {ctx : Ctx} (h : ctx.mode ≠ .acc) (s : State) (v : Byte) :
    (s.writeOperand ctx v).read ctx.ea = v := by
  rw [State.writeOperand, if_neg h, State.read_write_same]

/-- One ROL A on A and the carry. -/
def rolStep (ac : Byte × Bool) : Byte × Bool := (ShiftKind.rol.result ac.1 ac.2, ShiftKind.rol.carryOut ac.1)

/-- A ring of nine bits, turned nine times (R95). -/
theorem rolStep_nine (ac : Byte × Bool) : rolStep^[9] ac = ac := by
  have hall : ∀ (a : Byte) (c : Bool), rolStep^[9] (a, c) = (a, c) := by decide
  exact hall ac.1 ac.2

theorem exec_rol_acc (s : State) : ∃ t, exec (.rol .acc) s = .next t ∧ (t.a, t.flag .c) = rolStep (s.a, s.flag .c) := by
  refine ⟨_, rfl, Prod.ext rfl ?_⟩
  simp only [State.flag_finish, State.flag_setNZ, State.flag_writeOperand, State.flag_setFlag]
  rfl

theorem execTimes_rol_acc (n : Nat) (s : State) : ∃ t, execTimes (.rol .acc) n s = .next t ∧
    (t.a, t.flag .c) = rolStep^[n] (s.a, s.flag .c) := by
  induction n generalizing s with
  | zero => exact ⟨s, rfl, rfl⟩
  | succ n ih =>
    obtain ⟨t, ht, hstep⟩ := exec_rol_acc s
    obtain ⟨u, hu, hrest⟩ := ih t
    exact ⟨u, by simp only [execTimes, ht, hu], by rw [hrest, hstep, Function.iterate_succ_apply]⟩

end Sys2Proof.Machine

namespace Sys2Proof.Machine.Claims

variable {i : Instr} {s : State}

/-- The last clause of `Shifts` is the accumulator form's or the memory form's, as `writeOperand` goes to A or to EA. -/
theorem shifts_of_exec {k : ShiftKind} {f : ShiftForm} (h : exec i s = shift i k s) (hf : i.operand = f.operand)
    (hi : WritesBack i) :
    Shifts i f s (k.result (operandOf i s) (s.flag .c)).toNat (k.carryOut (operandOf i s)) := by
  refine ⟨_, h, ?_, ?_, ?_, outcome_finish_of_fixed hi.fixed_cost .., ?_⟩
  · simp [State.flag_setNZ, State.flag_setFlag, operandOf]
  · rw [setsNZ_finish, BitVec.ofNat_toNat, BitVec.setWidth_eq]
    exact setsNZ_setNZ ..
  · simp
  · split
    · next hacc =>
      have hmode : i.operand.mode = .acc := by rw [hf, mode_acc_iff, hacc]
      refine ⟨?_, (updates_shift (p := ⟨[.a], [.n, .z, .c], [], False, False⟩) rfl (fun _ => .head _)
        (fun hmem => absurd hmode hmem) (.refl _)).frame id ⟨.v, by simp⟩⟩
      rw [State.finish_a, State.setNZ_a, State.writeOperand, if_pos ((resolve_mode ..).trans hmode)]
      rfl
    · next hmem =>
      have hmode : i.operand.mode ≠ .acc := by rwa [hf, ne_eq, mode_acc_iff]
      refine ⟨?_, (updates_shift (p := ⟨[], [.n, .z, .c], [eaOf i s], False, False⟩) rfl
        (fun hacc => absurd hacc hmode) (fun _ => .head _) (.refl _)).frame id ⟨.v, by simp⟩⟩
      rw [State.read_finish, State.read_setNZ]
      exact congrArg BitVec.toNat (State.read_writeOperand (by rwa [resolve_mode]) ..)

/-- Settles O26: each of the four runs `shift`; its result as a number by `toNat_result_asl` and its like. -/
theorem shiftsAndRotates : Obligations.ShiftsAndRotates := by
  intro s f c
  refine ⟨?_, ?_, ?_, ?_⟩ <;> intro v
  · exact toNat_result_asl v (s.flag .c) ▸ shifts_of_exec rfl rfl (.asl f)
  · exact toNat_result_lsr v (s.flag .c) ▸ shifts_of_exec rfl rfl (.lsr f)
  · exact toNat_result_rol v (s.flag .c) ▸ shifts_of_exec rfl rfl (.rol f)
  · exact toNat_result_ror v (s.flag .c) ▸ shifts_of_exec rfl rfl (.ror f)

/-- Settles O27: nine executions by `execTimes_rol_acc`, and `rolStep_nine`. -/
theorem nineRolsRestoreAccumulatorAndCarry : Obligations.NineRolsRestoreAccumulatorAndCarry := by
  intro s
  obtain ⟨t, ht, hac⟩ := execTimes_rol_acc 9 s
  rw [rolStep_nine] at hac
  exact ⟨t, ht, congrArg Prod.fst hac, congrArg Prod.snd hac⟩

end Sys2Proof.Machine.Claims

/-! ## Jumps, calls and returns (46_jump_call.md), the stack instructions (47_stack.md) -/

namespace Sys2Proof.Machine

open Claims

variable (s : State)

/-- The word of two bytes, written from its number (R36). -/
theorem word_eq_ofNat (l h : Byte) : word l h = BitVec.ofNat 16 (l.toNat + 256 * h.toNat) := by
  rw [← toNat_word, BitVec.ofNat_toNat, BitVec.setWidth_eq]

/-- RTS on the two pulled bytes (R118). -/
theorem execRts_eq : execRts s =
    .next ((s.pull.2.pull.2.jump (word s.pull.1 s.pull.2.pull.1 + 1)).finish .rts false 0) := rfl

theorem execPlp_eq : execPlp s = .next ((s.pull.2.writeP s.pull.1).finish .plp false 0) := rfl

/-- Of two pushed bytes the first stands at the old SP, the second one below it (R42). -/
theorem read_push_push (v w : Byte) : ((s.push v).push w).read (stackAddr s.sp) = v ∧
    ((s.push v).push w).read (stackAddr (s.sp - 1)) = w := by
  have hne : stackAddr s.sp ≠ stackAddr (s.sp - 1) := by
    rw [ne_eq, stackAddr_inj]
    bv_omega
  constructor
  · rw [State.read_push, State.push_sp, if_neg hne, State.read_push, if_pos rfl]
  · rw [State.read_push, State.push_sp, if_pos rfl]

end Sys2Proof.Machine

namespace Sys2Proof.Machine.Claims

theorem stackAt_one (sp : Byte) : stackAt sp 1 = stackAddr (sp + 1) := stackAt_eq_stackAddr sp 1

theorem stackAt_two (sp : Byte) : stackAt sp 2 = stackAddr (sp + 1 + 1) := by
  rw [stackAt_eq_stackAddr, BitVec.add_assoc]
  rfl

theorem stackAt_three (sp : Byte) : stackAt sp 3 = stackAddr (sp + 1 + 1 + 1) := by
  rw [stackAt_eq_stackAddr, BitVec.add_assoc, BitVec.add_assoc]
  rfl

theorem frame_trans {rs : List Reg} {fs : List Flag} {stored : List Addr} {s t u : State}
    (h : Frame rs fs stored s t) (h' : Frame rs fs [] t u) : Frame rs fs stored s u := by
  obtain ⟨hregs, ⟨hflags, hbit5⟩, hmem, hmark⟩ := h
  obtain ⟨hregs', ⟨hflags', hbit5'⟩, hmem', hmark'⟩ := h'
  exact ⟨fun q hq => (hregs' q hq).trans (hregs q hq),
    ⟨fun g hg => (hflags' g hg).trans (hflags g hg), hbit5'.trans hbit5⟩,
    fun a ha => (hmem' a List.not_mem_nil).trans (hmem a ha), hmark'.trans hmark⟩

/-- SP back where it was leaves the frame. -/
theorem frame_of_sp_eq {fs : List Flag} {stored : List Addr} {s t : State} (h : Frame [.sp] fs stored s t)
    (hsp : t.sp = s.sp) : Frame [] fs stored s t := by
  refine ⟨fun q _ => ?_, h.2⟩
  by_cases hq : q = .sp
  · rw [hq]
    exact hsp
  · exact h.1 q (by simpa using hq)

/-- Settles O33: the operand word itself, and `resolve_ind_ea` for the pointer. -/
theorem jmpSetsPc : Obligations.JmpSetsPc := by
  refine fun s w => ⟨⟨_, rfl, rfl, ?_, ?_⟩, ⟨_, rfl, resolve_ind_ea s w, ?_, ?_⟩⟩
  · simp only [State.finish_outcome, Instr.cost, Instr.opcode]
    rfl
  · exact frame_exec (i := .jmp (.abs w)) rfl (by simp) (by simp) (by simp)
  · simp only [State.finish_outcome, Instr.cost, Instr.opcode]
    rfl
  · exact frame_exec (i := .jmp (.ind w)) rfl (by simp) (by simp) (by simp)

/-- Settles O34: the two stack bytes by `read_push_push`. -/
theorem jsrPushesReturnAddress : Obligations.JsrPushesReturnAddress := by
  intro s target
  obtain ⟨hhigh, hlow⟩ := read_push_push s (hi (s.pc - 1)) (lo (s.pc - 1))
  refine ⟨_, rfl, rfl, ?_, ?_, ?_, ?_, frame_exec (i := .jsr target) rfl (by simp) (by simp) (by simp)⟩
  · simp only [State.finish_sp, State.jump_sp, State.push_sp]
    bv_omega
  · simp only [State.finish_outcome, Instr.cost, Instr.opcode]
    rfl
  · rw [State.read_finish, State.read_jump, stackBelow_zero, hhigh]
  · rw [State.read_finish, State.read_jump, stackBelow_one, hlow]

/-- Settles O35, through `execRts_eq`. -/
theorem rtsPullsReturnAddress : Obligations.RtsPullsReturnAddress := by
  intro s
  refine ⟨_, execRts_eq s, ?_, ?_, rfl, frame_exec (i := .rts) rfl (by simp) (by simp) (by simp)⟩
  · simp [word_eq_ofNat, BitVec.ofNat_add, stackAt_one, stackAt_two]
  · simp [BitVec.ofNat_add, BitVec.add_assoc]

/-- Settles O36: P and PC by the laws of `returnFromInterrupt`, what is kept by RTI's rows. -/
theorem rtiRestoresStatusThenPc : Obligations.RtiRestoresStatusThenPc := by
  intro s
  have hu : Updates (permission .rti s) s (s.returnFromInterrupt.finish .rti false 0) := updates_exec rfl
  have hregs : KeepsRegs [.sp] s (s.returnFromInterrupt.finish .rti false 0) := fun _ hq => hu.reg_eq hq
  have hmem : KeepsMemory [] s (s.returnFromInterrupt.finish .rti false 0) := fun _ ha => hu.read_eq ha
  refine ⟨_, rfl, ?_, ?_, ?_, rfl, hregs, hmem, s.returnFromInterrupt_illegalSeen⟩
  · rw [stackAt_one]
    rfl
  · rw [State.finish_pc, State.returnFromInterrupt_pc, toNat_word, stackAt_two, stackAt_three]
  · simp [BitVec.ofNat_add, BitVec.add_assoc]

/-- Settles O37 from O34 and O35: RTS pulls from the two slots JSR stored to, so its word is the return address - 1
again. -/
theorem jsrThenRtsComesBack : Obligations.JsrThenRtsComesBack := by
  intro s target elsewhere
  obtain ⟨t, hjsr, hpc, hsp, -, hhigh, hlow, hcall⟩ := jsrPushesReturnAddress s target
  obtain ⟨u, hrts, hpc', hsp', -, hreturn⟩ := rtsPullsReturnAddress (t.jump elsewhere)
  rw [State.jump_sp] at hpc' hsp'
  have hslot1 : stackAt t.sp 1 = stackBelow s.sp 1 := by
    rw [hsp, stackAt_eq_stackAddr, stackBelow_one, stackAddr_inj]
    bv_omega
  have hslot0 : stackAt t.sp 2 = stackBelow s.sp 0 := by
    rw [hsp, stackAt_eq_stackAddr, stackBelow_zero, stackAddr_inj]
    bv_omega
  refine ⟨t, u, hjsr, hpc, hrts, ?_, frame_of_sp_eq (frame_trans ((frame_jump elsewhere).2 hcall) hreturn) ?_⟩
  · rw [hpc', hslot1, hslot0, State.read_jump, State.read_jump, hhigh, hlow, ← toNat_word, word_lo_hi]
    bv_omega
  · rw [hsp', hsp]
    bv_omega

/-- Settles O38: the pushed byte by `read_push`, at the slot of the old SP. -/
theorem phaPhpPushOneByte : Obligations.PhaPhpPushOneByte := by
  intro s
  have hsp : s.sp - 1 = BitVec.ofInt 8 (s.sp.toNat - 1) := by bv_omega
  refine ⟨⟨_, rfl, ?_, hsp, rfl, rfl, frame_exec (i := .pha) rfl (by simp) (by simp) (by simp)⟩,
    ⟨_, rfl, ?_, hsp, rfl, rfl, frame_exec (i := .php) rfl (by simp) (by simp) (by simp)⟩⟩ <;>
  rw [State.read_finish, stackBelow_zero, State.read_push, if_pos rfl]

/-- Settles O39: PLA by `setNZ` of the pulled byte, PLP by `writeP` of it. -/
theorem plaPlpPullOneByte : Obligations.PlaPlpPullOneByte := by
  intro s
  have hsp : s.sp + 1 = BitVec.ofNat 8 (s.sp.toNat + 1) := by bv_omega
  have hu : Updates (permission .plp s) s ((s.pull.2.writeP s.pull.1).finish .plp false 0) := updates_exec rfl
  refine ⟨⟨_, execPla_eq s, ?_, ?_, hsp, rfl, rfl, frame_exec (i := .pla) rfl (by simp) (by simp) (by simp)⟩,
    ⟨_, execPlp_eq s, fun f => ?_, by simp, hsp, rfl, rfl, fun _ hq => hu.reg_eq hq, fun _ ha => hu.read_eq ha, rfl⟩⟩
  · simp [stackAt_one]
  · rw [setsNZ_finish]
    exact setsNZ_setNZ ..
  · simp [stackAt_one]

/-- Settles O40: PLP pulls the byte PHP pushed, which is P with bits 4 and 5 set. -/
theorem phpThenPlpRestoresFlagsButB : Obligations.PhpThenPlpRestoresFlagsButB := by
  intro s
  have hphp : exec .php s = .next ((s.push (s.p ||| 0x30#8)).finish .php false 0) := rfl
  have hbyte : ((s.push (s.p ||| 0x30#8)).finish .php false 0).pull.1 = s.p ||| 0x30#8 :=
    congrArg Prod.fst (pull_push s (s.p ||| 0x30#8))
  refine ⟨_, _, hphp, execPlp_eq _, BitVec.sub_add_cancel .., ?_, by simp, fun f hf => ?_⟩
  · rw [State.flag_finish, State.flag_writeP, hbyte]
    simp [Flag.bit]
  · rw [State.flag_finish, State.flag_writeP, hbyte]
    cases f with
    | b => exact absurd rfl hf
    | _ => simp [Flag.bit, State.flag]

/-- Settles O59: the context by `branchCtx_eq`, PC by the two outcomes of `branch`. -/
theorem relativeContextHoldsTarget : Obligations.RelativeContextHoldsTarget := by
  intro s d
  have hbranch (i : Instr) (cond : Bool) :
      ∃ t, branch i d cond s = .next t ∧ (t.pc = (branchCtx d s).ea ∨ t.pc = s.pc) := by
    cases cond
    · exact ⟨_, branch_false i d s, .inr rfl⟩
    · exact ⟨_, branch_true i d s, .inl rfl⟩
  refine ⟨rfl, rfl, rfl, add_sext16 s.pc d, fun i hi => ?_⟩
  simp only [List.mem_cons, List.not_mem_nil, or_false] at hi
  rcases hi with rfl | rfl | rfl | rfl | rfl | rfl | rfl | rfl <;> exact hbranch _ _

end Sys2Proof.Machine.Claims

/-! ## Cycles (70_reset_and_hazards.md R161 to R163) -/

namespace Sys2Proof.Machine

/-- The end of a defined instruction, with its extra cycles bounded: none but for a branch, which adds at most two
(R161). -/
theorem exec_eq_finish_le {i : Instr} (h : ∀ op, i ≠ .undefined op) (s : State) : ∃ t crossed extra,
    exec i s = .next (State.finish t i crossed extra) ∧ extra ≤ if i.operand.mode = .rel then 2 else 0 := by
  have hbranch (i : Instr) (d : Byte) (cond : Bool) :
      ∃ t crossed extra, branch i d cond s = .next (State.finish t i crossed extra) ∧ extra ≤ 2 := by
    cases cond
    · exact ⟨_, _, _, branch_false i d s, by simp⟩
    · exact ⟨_, _, _, branch_true i d s, by split <;> simp⟩
  cases i with
  | bcc d | bcs d | beq d | bne d | bmi d | bpl d | bvc d | bvs d => exact hbranch _ _ _
  | undefined op => exact absurd rfl (h op)
  | _ => exact ⟨_, _, _, rfl, Nat.zero_le _⟩

end Sys2Proof.Machine

namespace Sys2Proof.Machine.Claims

/-- Settles O50: the row's cycles by `entry_cycles`, the extra cycles by `exec_eq_finish_le`. -/
theorem reportedCyclesAreBounded : Obligations.ReportedCyclesAreBounded := by
  refine ⟨fun i s hu => ?_, fun op s => ⟨_, rfl, rfl⟩⟩
  obtain ⟨e, hop, hmode, hcost⟩ := exists_entry hu
  obtain ⟨hlow, hhigh, hrel⟩ := entry_cycles hop
  obtain ⟨t, crossed, extra, hexec, hextra⟩ := exec_eq_finish_le hu s
  have hpenalty : (if e.pagePenalty && crossed then 1 else 0) ≤ e.pagePenalty.toNat := by
    cases e.pagePenalty <;> cases crossed <;> decide
  refine ⟨_, _, hexec, rfl, rfl, ?_⟩
  rw [← hmode] at hrel
  simp only [cycles, hcost]
  by_cases hbranch : i.operand.mode = .rel
  · obtain ⟨hbase, hnone⟩ := hrel hbranch
    rw [if_pos hbranch] at hextra ⊢
    have hzero : e.pagePenalty.toNat = 0 := by rw [hnone]; rfl
    exact ⟨by omega, by omega, by omega, by omega, fun _ => by omega⟩
  · rw [if_neg hbranch] at hextra ⊢
    have hone := e.pagePenalty.toNat_le
    exact ⟨by omega, by omega, by omega, by omega, fun h => absurd h hbranch⟩

end Sys2Proof.Machine.Claims
